-- ==== Sys2Proof/Word.lean ====
section
/-! DEFINITION. The widths of the hardware (00_scope.md R4, R6; 10_state.md R10, R13, R20, R21; 30_encoding.md R71). -/

namespace Sys2Proof

/-- A register, timer or memory byte: 8 bits, unsigned (R10, R18, R41). -/
abbrev Byte := BitVec 8

/-- An address, the program counter, the index register, a return address: 12 bits (R13, R15, R16, R41). -/
abbrev Addr := BitVec 12

/-- A 16-bit opcode (R70). -/
abbrev Word := BitVec 16

/-- A 4-bit slice of an opcode (R6, R71): an opcode digit, a register number or a sprite height. -/
abbrev Nibble := BitVec 4

/-- A register number, 0 to 15, as the 4-bit field of an opcode (R10, R73). -/
abbrev RegNum := Nibble

/-- VF, the sixteenth register and the only flag (R11). -/
abbrev vF : RegNum := 0xF#4

/-- A grid of 64 by 32 one-bit pixels, row by row: 32 rows (top first) of 64 columns (left first) (R20). -/
abbrev Display := Vector (Vector Bool 64) 32

/-- A snapshot of the sixteen keys, true when pressed (R21). -/
abbrev Keys := Vector Bool 16

end Sys2Proof
end

