-- ==== Sys2Proof/Config.lean ====
section
/-! DEFINITION. What the spec leaves to the implementation or to the host: the open parameters of 00_scope.md R5, and
the free values (the host's moves: key snapshot, frame drain, readiness, random byte). -/

namespace Sys2Proof

/-- The open parameters of R5 that the machine itself uses. They are fixed for a machine; State carries them, so that a
statement about every state holds for every admissible choice (log entry 8). -/
structure Params where
  /-- `TIMER_DIVISOR`, the steps between two timer decrements; at least 1 (R5, R219). -/
  timerDivisor : Nat
  /-- `STACK_DEPTH`, the most return addresses the stack holds, at least 1; `none` is infinity (R5, R16). -/
  stackDepth : Option Nat
  /-- `NOP_SET`, the opcodes of the NOP class, none of them in a row of R74 (R5, R78). -/
  nopSet : List Word
  /-- `FONT`, the 80 bytes at 0x050 (R5, R50). -/
  font : Vector Byte 80
  deriving DecidableEq, Repr

/-- What the host does in one turn, a gap between two cell actions of the execution agent (R233): each part is one atomic
action on a whole cell (R228, R229, R230, R232), or the byte on the random input (R225). -/
structure HostMoves where
  /-- The key snapshot the presentation agent publishes last, or `none` where it publishes none (R230). -/
  publishes : Option Keys
  /-- Whether the presentation agent drains the frame cell (R229). -/
  drains : Bool
  /-- Whether the presentation agent sets the readiness signal (R232). -/
  signalsReady : Bool
  /-- The byte the random source holds out from this turn on (R141, R225). -/
  randomByte : Byte
  deriving DecidableEq, Repr, Inhabited

/-- FREE VALUE (log entries 5 and 6). The host's moves in the turn of the given number: any snapshot or none, any
drain, any moment of readiness, any random byte. No body: nothing can be proved of its value. -/
opaque Config.freeHostMoves : Nat → HostMoves

/-- FREE VALUE (log entry 8). `TIMER_DIVISOR` less one on the machine after creation: the spec gives no default (R5, D15)
and requires the divisor to be at least 1 (D14). -/
opaque Config.timerDivisorLessOne : Nat

end Sys2Proof
end

