-- ==== Sys2Proof/Syntax.lean ====
section
/-! DEFINITION. The instruction set: one constructor per row of the opcode table (30_encoding.md R74), in the table's
order. A field's type is the field's width in the opcode (R71), so every term is an instruction the encoding admits
(R73: all values of every field are legal). The NOP class (R102) has no row and no constructor. -/

namespace Sys2Proof

/-- An instruction, the decoder's "tagged instruction value" (R70). Fields: `x`, `y` register numbers, `n` a sprite
height, `kk` a byte, `nnn` an address (R71). -/
inductive Instr where
  /-- `00E0`, CLS (R171). -/
  | cls
  /-- `00EE`, RET (R103). -/
  | ret
  /-- `1nnn`, JP nnn (R104). -/
  | jp (nnn : Addr)
  /-- `2nnn`, CALL nnn (R105). -/
  | call (nnn : Addr)
  /-- `3xkk`, SE Vx, kk (R120). -/
  | seImm (x : RegNum) (kk : Byte)
  /-- `4xkk`, SNE Vx, kk (R121). -/
  | sneImm (x : RegNum) (kk : Byte)
  /-- `5xy0`, SE Vx, Vy (R122). -/
  | seReg (x y : RegNum)
  /-- `6xkk`, LD Vx, kk (R130). -/
  | ldImm (x : RegNum) (kk : Byte)
  /-- `7xkk`, ADD Vx, kk (R131). -/
  | addImm (x : RegNum) (kk : Byte)
  /-- `8xy0`, LD Vx, Vy (R132). -/
  | ldReg (x y : RegNum)
  /-- `8xy1`, OR Vx, Vy (R133). -/
  | orReg (x y : RegNum)
  /-- `8xy2`, AND Vx, Vy (R134). -/
  | andReg (x y : RegNum)
  /-- `8xy3`, XOR Vx, Vy (R135). -/
  | xorReg (x y : RegNum)
  /-- `8xy4`, ADD Vx, Vy (R136). -/
  | addReg (x y : RegNum)
  /-- `8xy5`, SUB Vx, Vy (R137). -/
  | sub (x y : RegNum)
  /-- `8xy6`, SHR Vx; `y` is encoded and ignored (R138). -/
  | shr (x y : RegNum)
  /-- `8xy7`, SUBN Vx, Vy (R139). -/
  | subn (x y : RegNum)
  /-- `8xyE`, SHL Vx; `y` is encoded and ignored (R140). -/
  | shl (x y : RegNum)
  /-- `9xy0`, SNE Vx, Vy (R123). -/
  | sneReg (x y : RegNum)
  /-- `Annn`, LD I, nnn (R150). -/
  | ldI (nnn : Addr)
  /-- `Bnnn`, JP V0, nnn (R106). -/
  | jpV0 (nnn : Addr)
  /-- `Cxkk`, RND Vx, kk (R141). -/
  | rnd (x : RegNum) (kk : Byte)
  /-- `Dxyn`, DRW Vx, Vy, n (R172). -/
  | drw (x y : RegNum) (n : Nibble)
  /-- `Ex9E`, SKP Vx (R190). -/
  | skp (x : RegNum)
  /-- `ExA1`, SKNP Vx (R191). -/
  | sknp (x : RegNum)
  /-- `Fx07`, LD Vx, DT (R193). -/
  | ldVxDT (x : RegNum)
  /-- `Fx0A`, LD Vx, K (R192). -/
  | ldKey (x : RegNum)
  /-- `Fx15`, LD DT, Vx (R194). -/
  | ldDT (x : RegNum)
  /-- `Fx18`, LD ST, Vx (R195). -/
  | ldST (x : RegNum)
  /-- `Fx1E`, ADD I, Vx (R151). -/
  | addI (x : RegNum)
  /-- `Fx29`, LD F, Vx (R152). -/
  | ldF (x : RegNum)
  /-- `Fx33`, LD B, Vx (R153). -/
  | bcd (x : RegNum)
  /-- `Fx55`, LD [I], Vx (R154). -/
  | store (x : RegNum)
  /-- `Fx65`, LD Vx, [I] (R155). -/
  | load (x : RegNum)
  deriving DecidableEq, Repr

end Sys2Proof
end

