-- ==== Sys2Proof/WellFormed.lean ====
section
/-! DEFINITION. Well-formedness. An `Instr` is well formed by its type: each field has the width of the opcode field
it stands for and R73 makes every value of it legal. What can be ill formed is the configuration (00_scope.md R5) and the
program handed to Load (20_memory.md R53): the checks on those are here. -/

namespace Sys2Proof

/-- A row of the opcode table: an opcode belongs to it when `op &&& mask = pattern` (R74). -/
structure OpcodeRow where
  mask : Word
  pattern : Word
  deriving DecidableEq, Repr

/-- The opcode belongs to the row (R74). -/
def OpcodeRow.matchesWord (r : OpcodeRow) (op : Word) : Bool := (op &&& r.mask) == r.pattern

/-- The 34 rows of R74, in its order. -/
def opcodeTable : List OpcodeRow :=
  [⟨0xFFFF, 0x00E0⟩, ⟨0xFFFF, 0x00EE⟩, ⟨0xF000, 0x1000⟩, ⟨0xF000, 0x2000⟩, ⟨0xF000, 0x3000⟩, ⟨0xF000, 0x4000⟩] ++
  [⟨0xF00F, 0x5000⟩, ⟨0xF000, 0x6000⟩, ⟨0xF000, 0x7000⟩, ⟨0xF00F, 0x8000⟩, ⟨0xF00F, 0x8001⟩, ⟨0xF00F, 0x8002⟩] ++
  [⟨0xF00F, 0x8003⟩, ⟨0xF00F, 0x8004⟩, ⟨0xF00F, 0x8005⟩, ⟨0xF00F, 0x8006⟩, ⟨0xF00F, 0x8007⟩, ⟨0xF00F, 0x800E⟩] ++
  [⟨0xF00F, 0x9000⟩, ⟨0xF000, 0xA000⟩, ⟨0xF000, 0xB000⟩, ⟨0xF000, 0xC000⟩, ⟨0xF000, 0xD000⟩, ⟨0xF0FF, 0xE09E⟩] ++
  [⟨0xF0FF, 0xE0A1⟩, ⟨0xF0FF, 0xF007⟩, ⟨0xF0FF, 0xF00A⟩, ⟨0xF0FF, 0xF015⟩, ⟨0xF0FF, 0xF018⟩, ⟨0xF0FF, 0xF01E⟩] ++
  [⟨0xF0FF, 0xF029⟩, ⟨0xF0FF, 0xF033⟩, ⟨0xF0FF, 0xF055⟩, ⟨0xF0FF, 0xF065⟩]

/-- `TIMER_DIVISOR >= 1` (R5, D14). -/
def Params.timerOk (p : Params) : Bool := 1 ≤ p.timerDivisor

/-- `STACK_DEPTH >= 1` (R5, D5). -/
def Params.stackOk (p : Params) : Bool :=
  match p.stackDepth with
  | none => true
  | some d => 1 ≤ d

/-- `NOP_SET` is disjoint from the 34 patterns of R74 (R5). -/
def Params.nopSetOk (p : Params) : Bool := p.nopSet.all fun w => opcodeTable.all fun r => !r.matchesWord w

/-- The configuration meets the constraints of R5. -/
def Params.wellFormed (p : Params) : Bool := p.timerOk && p.stackOk && p.nopSetOk

/-- The longest program Load accepts: 4096 - 512 bytes (R53). -/
def maxRomLength : Nat := 3584

/-- The program fits between 0x200 and the end of memory (R53, R262). -/
def romFits (rom : List Byte) : Bool := rom.length ≤ maxRomLength

end Sys2Proof
end

