-- ==== Sys2Proof/Decode.lean ====
section
/-! DEFINITION. The decoder, a function of the 16-bit opcode alone (30_encoding.md R70 to R76), and the encoder written
from the same table. -/

namespace Sys2Proof

/-! ### Fields (R71) -/

/-- `n3` = `op[15:12]`, the major opcode. -/
def majorOf (op : Word) : Nibble := op.extractLsb' 12 4

/-- `x` = `op[11:8]`. -/
def xOf (op : Word) : RegNum := op.extractLsb' 8 4

/-- `y` = `op[7:4]`. -/
def yOf (op : Word) : RegNum := op.extractLsb' 4 4

/-- `n` = `n0` = `op[3:0]`. -/
def nOf (op : Word) : Nibble := op.extractLsb' 0 4

/-- `kk` = `op[7:0]`. -/
def kkOf (op : Word) : Byte := op.extractLsb' 0 8

/-- `nnn` = `op[11:0]`. -/
def nnnOf (op : Word) : Addr := op.extractLsb' 0 12

/-! ### The decode procedure (R75) -/

/-- Family 0: only the two whole words 0x00E0 and 0x00EE. -/
def decodeFamily0 (op : Word) : Option Instr :=
  if op = 0x00E0#16 then some .cls else if op = 0x00EE#16 then some .ret else none

/-- Family 8: the low nibble selects. -/
def decodeFamily8 (op : Word) : Option Instr :=
  match nOf op with
  | 0x0#4 => some (.ldReg (xOf op) (yOf op))
  | 0x1#4 => some (.orReg (xOf op) (yOf op))
  | 0x2#4 => some (.andReg (xOf op) (yOf op))
  | 0x3#4 => some (.xorReg (xOf op) (yOf op))
  | 0x4#4 => some (.addReg (xOf op) (yOf op))
  | 0x5#4 => some (.sub (xOf op) (yOf op))
  | 0x6#4 => some (.shr (xOf op) (yOf op))
  | 0x7#4 => some (.subn (xOf op) (yOf op))
  | 0xE#4 => some (.shl (xOf op) (yOf op))
  | _ => none

/-- Family E: the whole low byte selects. -/
def decodeFamilyE (op : Word) : Option Instr :=
  match kkOf op with
  | 0x9E#8 => some (.skp (xOf op))
  | 0xA1#8 => some (.sknp (xOf op))
  | _ => none

/-- Family F: the whole low byte selects. -/
def decodeFamilyF (op : Word) : Option Instr :=
  match kkOf op with
  | 0x07#8 => some (.ldVxDT (xOf op))
  | 0x0A#8 => some (.ldKey (xOf op))
  | 0x15#8 => some (.ldDT (xOf op))
  | 0x18#8 => some (.ldST (xOf op))
  | 0x1E#8 => some (.addI (xOf op))
  | 0x29#8 => some (.ldF (xOf op))
  | 0x33#8 => some (.bcd (xOf op))
  | 0x55#8 => some (.store (xOf op))
  | 0x65#8 => some (.load (xOf op))
  | _ => none

/-- The instruction an opcode of R74's table stands for, or `none` for the words R76 makes illegal. -/
def decode (op : Word) : Option Instr :=
  match majorOf op with
  | 0x0#4 => decodeFamily0 op
  | 0x1#4 => some (.jp (nnnOf op))
  | 0x2#4 => some (.call (nnnOf op))
  | 0x3#4 => some (.seImm (xOf op) (kkOf op))
  | 0x4#4 => some (.sneImm (xOf op) (kkOf op))
  | 0x5#4 => if nOf op = 0x0#4 then some (.seReg (xOf op) (yOf op)) else none
  | 0x6#4 => some (.ldImm (xOf op) (kkOf op))
  | 0x7#4 => some (.addImm (xOf op) (kkOf op))
  | 0x8#4 => decodeFamily8 op
  | 0x9#4 => if nOf op = 0x0#4 then some (.sneReg (xOf op) (yOf op)) else none
  | 0xA#4 => some (.ldI (nnnOf op))
  | 0xB#4 => some (.jpV0 (nnnOf op))
  | 0xC#4 => some (.rnd (xOf op) (kkOf op))
  | 0xD#4 => some (.drw (xOf op) (yOf op) (nOf op))
  | 0xE#4 => decodeFamilyE op
  | _ => decodeFamilyF op

/-- What a fetched word is: a word of the NOP class (tested first, R75), an instruction, or an illegal word (R76). -/
inductive Decoded where
  | nop
  | instr (i : Instr)
  | illegal (op : Word)
  deriving DecidableEq, Repr

/-- R75 with the parameter `NOP_SET`. -/
def decodeWord (nopSet : List Word) (op : Word) : Decoded :=
  if nopSet.contains op then .nop
  else match decode op with
    | some i => .instr i
    | none => .illegal op

/-! ### Decoding bytes -/

/-- Why a sequence of bytes gives no instruction. -/
inductive DecodeReject where
  /-- Fewer than two bytes: no opcode (R70). -/
  | truncated
  /-- The opcode matches no row of R74 (R76). -/
  | unassigned (op : Word)
  deriving DecidableEq, Repr

/-- The opcode of two bytes: the byte at the lower address is the high byte (R43). -/
def wordOfBytes (hi lo : Byte) : Word := hi ++ lo

/-- The instruction at the head of a sequence of bytes and the bytes after it (R43, R70, R79). -/
def decodeBytes : List Byte → Except DecodeReject (Instr × List Byte)
  | hi :: lo :: rest =>
    match decode (wordOfBytes hi lo) with
    | some i => .ok (i, rest)
    | none => .error (.unassigned (wordOfBytes hi lo))
  | _ => .error .truncated

/-- The two bytes of an opcode in the order memory holds them (R43). -/
def bytesOfWord (op : Word) : List Byte := [op.extractLsb' 8 8, op.extractLsb' 0 8]

/-- The opcode whose low `nbits` bits are those of `w` and whose higher bits are 0. -/
def tableWord (nbits w : Nat) : Word := BitVec.ofNat 16 (w % 2 ^ nbits)

/-- The instruction the decoder reads from a word numbered as the opcode table numbers it: bit 0 of the 16-bit opcode is
bit 0 of `w`, and the bytes are laid out high byte first. -/
def decodeTableWord (nbits w : Nat) : Option Instr :=
  match decodeBytes (bytesOfWord (tableWord nbits w)) with
  | .ok (i, _) => some i
  | .error _ => none

/-! ### The encoder (R72, R74) -/

/-- Format `NNN`: a digit and an address. -/
def wordNNN (major : Nibble) (nnn : Addr) : Word := major ++ nnn

/-- Formats `XKK` and `X`: a digit, a register number and a byte. -/
def wordXKK (major : Nibble) (x : RegNum) (kk : Byte) : Word := major ++ (x ++ kk)

/-- Formats `XY` and `XYN`: a digit, two register numbers and a nibble. -/
def wordXYN (major : Nibble) (x y : RegNum) (n : Nibble) : Word := major ++ (x ++ (y ++ n))

/-- The opcode of an instruction (R74). -/
def encode : Instr → Word
  | .cls => 0x00E0#16
  | .ret => 0x00EE#16
  | .jp nnn => wordNNN 0x1 nnn
  | .call nnn => wordNNN 0x2 nnn
  | .seImm x kk => wordXKK 0x3 x kk
  | .sneImm x kk => wordXKK 0x4 x kk
  | .seReg x y => wordXYN 0x5 x y 0x0
  | .ldImm x kk => wordXKK 0x6 x kk
  | .addImm x kk => wordXKK 0x7 x kk
  | .ldReg x y => wordXYN 0x8 x y 0x0
  | .orReg x y => wordXYN 0x8 x y 0x1
  | .andReg x y => wordXYN 0x8 x y 0x2
  | .xorReg x y => wordXYN 0x8 x y 0x3
  | .addReg x y => wordXYN 0x8 x y 0x4
  | .sub x y => wordXYN 0x8 x y 0x5
  | .shr x y => wordXYN 0x8 x y 0x6
  | .subn x y => wordXYN 0x8 x y 0x7
  | .shl x y => wordXYN 0x8 x y 0xE
  | .sneReg x y => wordXYN 0x9 x y 0x0
  | .ldI nnn => wordNNN 0xA nnn
  | .jpV0 nnn => wordNNN 0xB nnn
  | .rnd x kk => wordXKK 0xC x kk
  | .drw x y n => wordXYN 0xD x y n
  | .skp x => wordXKK 0xE x 0x9E
  | .sknp x => wordXKK 0xE x 0xA1
  | .ldVxDT x => wordXKK 0xF x 0x07
  | .ldKey x => wordXKK 0xF x 0x0A
  | .ldDT x => wordXKK 0xF x 0x15
  | .ldST x => wordXKK 0xF x 0x18
  | .addI x => wordXKK 0xF x 0x1E
  | .ldF x => wordXKK 0xF x 0x29
  | .bcd x => wordXKK 0xF x 0x33
  | .store x => wordXKK 0xF x 0x55
  | .load x => wordXKK 0xF x 0x65

/-- The row of R74 an instruction belongs to. -/
def Instr.row : Instr → OpcodeRow
  | .cls => ⟨0xFFFF, 0x00E0⟩
  | .ret => ⟨0xFFFF, 0x00EE⟩
  | .jp _ => ⟨0xF000, 0x1000⟩
  | .call _ => ⟨0xF000, 0x2000⟩
  | .seImm _ _ => ⟨0xF000, 0x3000⟩
  | .sneImm _ _ => ⟨0xF000, 0x4000⟩
  | .seReg _ _ => ⟨0xF00F, 0x5000⟩
  | .ldImm _ _ => ⟨0xF000, 0x6000⟩
  | .addImm _ _ => ⟨0xF000, 0x7000⟩
  | .ldReg _ _ => ⟨0xF00F, 0x8000⟩
  | .orReg _ _ => ⟨0xF00F, 0x8001⟩
  | .andReg _ _ => ⟨0xF00F, 0x8002⟩
  | .xorReg _ _ => ⟨0xF00F, 0x8003⟩
  | .addReg _ _ => ⟨0xF00F, 0x8004⟩
  | .sub _ _ => ⟨0xF00F, 0x8005⟩
  | .shr _ _ => ⟨0xF00F, 0x8006⟩
  | .subn _ _ => ⟨0xF00F, 0x8007⟩
  | .shl _ _ => ⟨0xF00F, 0x800E⟩
  | .sneReg _ _ => ⟨0xF00F, 0x9000⟩
  | .ldI _ => ⟨0xF000, 0xA000⟩
  | .jpV0 _ => ⟨0xF000, 0xB000⟩
  | .rnd _ _ => ⟨0xF000, 0xC000⟩
  | .drw _ _ _ => ⟨0xF000, 0xD000⟩
  | .skp _ => ⟨0xF0FF, 0xE09E⟩
  | .sknp _ => ⟨0xF0FF, 0xE0A1⟩
  | .ldVxDT _ => ⟨0xF0FF, 0xF007⟩
  | .ldKey _ => ⟨0xF0FF, 0xF00A⟩
  | .ldDT _ => ⟨0xF0FF, 0xF015⟩
  | .ldST _ => ⟨0xF0FF, 0xF018⟩
  | .addI _ => ⟨0xF0FF, 0xF01E⟩
  | .ldF _ => ⟨0xF0FF, 0xF029⟩
  | .bcd _ => ⟨0xF0FF, 0xF033⟩
  | .store _ => ⟨0xF0FF, 0xF055⟩
  | .load _ => ⟨0xF0FF, 0xF065⟩

end Sys2Proof
end

