-- ==== Sys2Proof/Machine/Font.lean ====
section
/-! DEFINITION. The font table (20_memory.md R50 to R52) and the contents of memory at creation (R48, R261). -/

namespace Sys2Proof.Machine

/-- PRESUMED (log entry 9; R52 marks it general knowledge, D9): the conventional hexadecimal font, 16 glyphs of 5 rows. The
default of the parameter `FONT`. -/
def conventionalFont : Vector Byte 80 :=
  #v[0xF0, 0x90, 0x90, 0x90, 0xF0,  0x20, 0x60, 0x20, 0x20, 0x70,  0xF0, 0x10, 0xF0, 0x80, 0xF0,  0xF0, 0x10, 0xF0, 0x10, 0xF0,
     0x90, 0x90, 0xF0, 0x10, 0x10,  0xF0, 0x80, 0xF0, 0x10, 0xF0,  0xF0, 0x80, 0xF0, 0x90, 0xF0,  0xF0, 0x10, 0x20, 0x40, 0x40,
     0xF0, 0x90, 0xF0, 0x90, 0xF0,  0xF0, 0x90, 0xF0, 0x10, 0xF0,  0xF0, 0x90, 0xF0, 0x90, 0x90,  0xE0, 0x90, 0xE0, 0x90, 0xE0,
     0xF0, 0x80, 0x80, 0x80, 0xF0,  0xE0, 0x90, 0x90, 0x90, 0xE0,  0xF0, 0x80, 0xF0, 0x80, 0xF0,  0xF0, 0x80, 0xF0, 0x80, 0x80]

/-- `FONT_BASE` (R4, R50). -/
def fontBase : Nat := 0x050

/-- What the byte at address `a` holds at creation: a font byte at 0x050 to 0x09F, zero elsewhere (R26, R48, R260, R261).
It is what an address that memory does not list reads as. -/
def creationByte (font : Vector Byte 80) (a : Nat) : Byte :=
  if h : fontBase ≤ a ∧ a - fontBase < 80 then font[a - fontBase] else 0#8

end Sys2Proof.Machine
end

