-- ==== Sys2Proof/Machine/State.lean ====
section
/-! DEFINITION. The state of the machine (10_state.md), its value at creation (R26), and the reasons a step can stop. -/

namespace Sys2Proof.Machine

/-- The cause of a fatal condition with its `info` (60_exceptions.md R211 to R215; the list is complete). -/
inductive FatalCause where
  /-- The fetched word is illegal (R211). -/
  | decodeError (op : Word)
  /-- The program handed to Load has `length` > 3584 bytes (R212). -/
  | romTooLarge (length : Nat)
  /-- `Ex9E` or `ExA1` with Vx = `k` > 15 (R213). -/
  | keyIndexOutOfRange (k : Byte)
  /-- `2nnn` on a full stack; `v` is the address that could not be pushed (R214). -/
  | stackOverflow (v : Addr)
  deriving DecidableEq, Repr

/-- The halt latch `HALT` (R22). -/
inductive HaltLatch where
  | running
  | halted (cause : FatalCause)
  deriving DecidableEq, Repr

/-- The frame cell: the latest published display snapshot and the consumed flag stored beside it (R24, R229). -/
structure Frame where
  data : Display
  consumed : Bool
  deriving DecidableEq, Repr

/-- Memory: the bytes that differ from the contents at creation, by rising address (log entry 20). -/
abbrev Mem := List Host.Cell

/-- The machine. Fields up to `ready` are the spec's state; `update`, `rand` and `snapshot` are the step's output and inputs
(R100, R237); `loaded` records the boot step of R264; `params` are the open parameters of R5; `hostQueue` and `hostClock` are the
model's own, for what the host does (log entry 5). -/
structure State where
  /-- V0 to VF (R10); `v[15]` is VF, the only flag (R11). -/
  v : Vector Byte 16
  /-- The program counter (R13). -/
  pc : Addr
  /-- The index register `I` (R15). -/
  index : Addr
  /-- The return stack, top first (R16). -/
  stack : List Addr
  /-- The delay timer `DT` (R18). -/
  dt : Byte
  /-- The sound timer `ST` (R18). -/
  st : Byte
  /-- The tick counter `TICK` (R19). -/
  tick : Nat
  /-- The display buffer `Disp` (R20): `disp[y][x]`. -/
  disp : Display
  /-- The halt latch `HALT` (R22). -/
  halt : HaltLatch
  /-- Memory (R23, R41). -/
  mem : Mem
  /-- The cell `FRAME` (R24, R229). -/
  frame : Frame
  /-- The cell `KEYS` (R24, R230): the snapshot published last. -/
  keys : Keys
  /-- The flag `BUZZER` (R24, R231). -/
  buzzer : Bool
  /-- The signal `READY` (R24, R232). -/
  ready : Bool
  /-- The display update the last step returned, if any (R100, R170). -/
  update : Option Display
  /-- The random byte supplied to this step (R141, R225). -/
  rand : Byte
  /-- The key snapshot `Key[0..15]` supplied to this step, read from `KEYS` once per iteration (R21, R100, R233). -/
  snapshot : Keys
  /-- Whether a Load has succeeded (R264). -/
  loaded : Bool
  /-- The open parameters (R5). -/
  params : Params
  /-- Host moves already decided, one entry per turn; when it is empty the moves are free. -/
  hostQueue : List HostMoves
  /-- How many free host moves have been taken. -/
  hostClock : Nat
  deriving DecidableEq, Repr

/-- Why the machine stops. -/
inductive Fault where
  /-- Raised by `step` (and by `State.loadRom`) on a halted core: "a model must treat a halted state as a fault: never a
  final state, never resumed" (R210). Safe: the core takes no further step. -/
  | halted (cause : FatalCause)
  deriving DecidableEq, Repr

/-- Why the model gives no meaning. -/
inductive Refusal where
  /-- Raised by an arm of `exec` whose instruction has no meaning yet. Safe. No arm raises it. -/
  | notModelled (mnemonic : String)
  /-- Raised by `step` before a successful Load: no step is enabled (R264, D8, U15). Safe. -/
  | notLoaded
  /-- Raised by `step` under parameters outside the constraints of R5 (D14, U18: refused). Safe. -/
  | misconfigured
  /-- Raised by `State.loadRom` on a core already loaded: Load is defined once (R262, D24, U16: refused). Safe. -/
  | alreadyLoaded
  deriving DecidableEq, Repr

/-- All pixels off. -/
def blankDisplay : Display := Vector.replicate 32 (Vector.replicate 64 false)

/-- No key pressed. -/
def noKeys : Keys := Vector.replicate 16 false

/-- The recommended defaults of R5: an unbounded stack (D5), no NOP word (D4), the conventional font (D9). `TIMER_DIVISOR`
has none and stays open (D15). -/
def defaultParams : Params where
  timerDivisor := Config.timerDivisorLessOne + 1
  stackDepth := Option.none
  nopSet := []
  font := conventionalFont

/-- The machine right after creation, the hardware's only reset (R260; the "at creation" column of R26). No program is
loaded and `READY` is not set. DESIGN CHOICE values (log entries 1, 2, 6, 21, 30, 34): every zero, empty and off but memory's. -/
def State.reset : State where
  v := Vector.replicate 16 0#8
  pc := 0x200#12
  index := 0x000#12
  stack := []
  dt := 0#8
  st := 0#8
  tick := 0
  disp := blankDisplay
  halt := .running
  mem := []
  frame := ⟨blankDisplay, true⟩
  keys := noKeys
  buzzer := false
  ready := false
  update := Option.none
  rand := 0#8
  snapshot := noKeys
  loaded := false
  params := defaultParams
  hostQueue := []
  hostClock := 0

end Sys2Proof.Machine
end

