-- ==== Sys2Proof/Machine/Ops.lean ====
section
/-! DEFINITION. The named operations over registers, program counter, stack, memory and the halt latch: the primitives of
00_scope.md R7. -/

namespace Sys2Proof.Machine

/-- What an instruction or a step answers. -/
abbrev Result := Host.Outcome State Fault Refusal

/-! ### Registers (R7, R10, R13, R15, R18) -/

/-- `V[r]`: the read of a general register. -/
def State.reg (s : State) (r : RegNum) : Byte := s.v[r.toNat]'(r.isLt)

/-- `V[r] <- b`. -/
def State.setReg (s : State) (r : RegNum) (b : Byte) : State := { s with v := s.v.set r.toNat b r.isLt }

/-- `pc <- t`; the 12-bit type takes the value mod 4096 (R13). -/
def State.setPc (s : State) (t : Addr) : State := { s with pc := t }

/-- `I <- t`; the 12-bit type takes the value mod 4096 (R15). -/
def State.setIndex (s : State) (t : Addr) : State := { s with index := t }

/-- `DT <- b` (R18). -/
def State.setDt (s : State) (b : Byte) : State := { s with dt := b }

/-- `ST <- b` (R18). -/
def State.setSt (s : State) (b : Byte) : State := { s with st := b }

/-! ### Memory (R7, R41, R45) -/

/-- The byte listed at an address, if one is. -/
def memLookup : Mem → Nat → Option Byte
  | [], _ => none
  | (k, b) :: rest, a => if k = a then some b else memLookup rest a

/-- The list with the byte at `a` set, kept in rising order. -/
def memInsert (a : Nat) (v : Byte) : Mem → Mem
  | [] => [(a, v)]
  | (k, b) :: rest =>
    if a < k then (a, v) :: (k, b) :: rest
    else if a = k then (a, v) :: rest
    else (k, b) :: memInsert a v rest

/-- The list without an entry at `a`. -/
def memErase (a : Nat) : Mem → Mem
  | [] => []
  | (k, b) :: rest => if k = a then memErase a rest else (k, b) :: memErase a rest

/-- The byte at `a`: the listed one, else the one of creation. -/
def memRead (font : Vector Byte 80) (m : Mem) (a : Nat) : Byte := (memLookup m a).getD (creationByte font a)

/-- The byte at `a` written, in canonical form: writing what an unlisted address reads as removes the entry. -/
def memWrite (font : Vector Byte 80) (m : Mem) (a : Nat) (v : Byte) : Mem :=
  if v = creationByte font a then memErase a m else memInsert a v m

/-- The canonical form: addresses below 4096 and strictly rising, no entry equal to the byte of creation. -/
def Memory.wf (font : Vector Byte 80) : Mem → Bool
  | [] => true
  | (k, b) :: rest =>
    decide (k < 4096) && (b != creationByte font k) && rest.all (fun c => decide (k < c.1)) && Memory.wf font rest

/-- `MemRead(a, 1)` (R7): no side effect, never faults. -/
def State.readByte (s : State) (a : Addr) : Byte := memRead s.params.font s.mem a.toNat

/-- `MemWrite(a, 1, b)` (R7): never faults. -/
def State.writeByte (s : State) (a : Addr) (b : Byte) : State :=
  { s with mem := memWrite s.params.font s.mem a.toNat b }

/-- Bytes stored at `a`, `a + 1`, …, each address taken mod 4096, in rising order (R45, R46). -/
def State.writeBytes (s : State) (a : Addr) : List Byte → State
  | [] => s
  | b :: bs => (s.writeByte a b).writeBytes (a + 1) bs

/-- `MemRead(pc, 2)`: the big-endian opcode at `pc`, its second byte at `(pc + 1) mod 4096` (R43, R45). -/
def State.fetchWord (s : State) : Word := wordOfBytes (s.readByte s.pc) (s.readByte (s.pc + 1))

/-! ### Stack (R16, R17) -/

/-- The stack holds `STACK_DEPTH` entries (R16); never with an unbounded stack. -/
def State.stackFull (s : State) : Bool :=
  match s.params.stackDepth with
  | none => false
  | some d => decide (d ≤ s.stack.length)

/-- The new top entry pushed; the full stack is tested by the caller (R16). -/
def State.pushAddr (s : State) (a : Addr) : State := { s with stack := a :: s.stack }

/-- The address `Pop()` returns: the top entry, or 0x000 when the stack is empty (R17). -/
def State.topAddr (s : State) : Addr := s.stack.head?.getD 0x000#12

/-- The stack after `Pop()`; an empty stack stays empty (R17). -/
def State.dropTop (s : State) : State := { s with stack := s.stack.tail }

/-! ### The fatal mechanism (R210) -/

/-- `raise Fatal(cause, info)`: the halt latch is set and nothing else is written. The shared operation through which
every fatal condition of R211 to R214 is taken; the halted state is a next state, and a step from it is a fault (log
entry 4). -/
def raiseFatal (c : FatalCause) (s : State) : Result := .next { s with halt := .halted c }

end Sys2Proof.Machine
end

