-- ==== Sys2Proof/Machine/Timers.lean ====
section
/-! DEFINITION. The timer tick and the divisor (60_exceptions.md R219, R220, R224; 10_state.md R19). -/

namespace Sys2Proof.Machine

/-- One decrement of a saturating down-counter (R18, R219). -/
def decTimer (b : Byte) : Byte := if b = 0#8 then 0#8 else b - 1

/-- The tick counter reaches `TIMER_DIVISOR` in this tick (R219). -/
def State.tickDue (s : State) : Bool := s.tick + 1 == s.params.timerDivisor

/-- `TimerTick()`, phase 7 of every completed step (R219). -/
def State.timerTick (s : State) : State :=
  { s with
    tick := if s.tickDue then 0 else s.tick + 1
    dt := if s.tickDue then decTimer s.dt else s.dt
    st := if s.tickDue then decTimer s.st else s.st }

/-- The predicate `buzzer_active`: `ST != 0` (R18, R224). -/
def State.buzzerActive (s : State) : Bool := s.st != 0#8

/-- `TIMER_DIVISOR` of a clock of `num / den` steps per second: `round(clock / 60)`, halves away from zero (R5, R219, D14). -/
def timerDivisorOf (num den : Nat) : Nat := (2 * num + 60 * den) / (120 * den)

end Sys2Proof.Machine
end

