-- ==== Sys2Proof/Machine/Channel.lean ====
section
/-! DEFINITION. The cross-thread cells and the operations of the three agents on them (60_exceptions.md R226 to R233): each
is one atomic action on one whole cell (R228). -/

namespace Sys2Proof.Machine

/-! ### The execution agent's operations -/

/-- `FRAME.publish(f)` when the step returned an update, nothing otherwise (R229, R233). -/
def State.publishUpdate (s : State) : State :=
  { s with frame := match s.update with
      | some f => ⟨f, false⟩
      | none => s.frame }

/-- `BUZZER <- (ST != 0)` (R231, R233). -/
def State.writeBuzzer (s : State) : State := { s with buzzer := s.buzzerActive }

/-- `k <- KEYS.read()`: the snapshot the step will use, the cell unchanged (R230, R233). -/
def State.readKeys (s : State) : State := { s with snapshot := s.keys }

/-! ### The host agents' operations -/

/-- The presentation agent publishes a key snapshot, or none (R230). -/
def State.publishKeys (s : State) (k : Option Keys) : State := { s with keys := k.getD s.keys }

/-- What `drain()` gives the presentation agent: the frame, when it is unconsumed (R229). -/
def State.frameToDrain (s : State) : Option Display := if s.frame.consumed then none else some s.frame.data

/-- What `drain()` leaves: the frame marked consumed (R229). `b` says whether the agent drains at all. -/
def State.drainFrame (s : State) (b : Bool) : State :=
  { s with frame := { s.frame with consumed := s.frame.consumed || b } }

/-- The presentation agent sets `READY`, once and for good (R232). `b` says whether it does. -/
def State.signalReady (s : State) (b : Bool) : State := { s with ready := s.ready || b }

/-- The random source supplies the byte of the next step (R141, R225). -/
def State.supplyRandom (s : State) (b : Byte) : State := { s with rand := b }

/-- The host's moves in one turn. -/
def State.applyHost (s : State) (m : HostMoves) : State :=
  (((s.publishKeys m.publishes).drainFrame m.drains).signalReady m.signalsReady).supplyRandom m.randomByte

/-- The host's turn: the next moves already decided, or else free moves, fresh each time (R228, R230, D18; log entry 5). -/
def State.hostTurn (s : State) : State :=
  match s.hostQueue with
  | m :: ms => { s with hostQueue := ms }.applyHost m
  | [] => { s with hostClock := s.hostClock + 1 }.applyHost (Config.freeHostMoves s.hostClock)

end Sys2Proof.Machine
end

