-- ==== Sys2Proof/Machine/Cycle.lean ====
section
/-! DEFINITION. The phases of a step around the execute phase (40_step_and_flow.md R100) and of the scheduler iteration
around the step (60_exceptions.md R233), and what enables a step (70_reset_and_hazards.md R264, R265). -/

namespace Sys2Proof.Machine

/-- What the execution agent can do next. -/
inductive Gate where
  /-- The core is halted: no further step (R210). -/
  | halted (c : FatalCause)
  /-- The parameters are outside R5's constraints (D14, U18). -/
  | misconfigured
  /-- No program has been loaded: no step is enabled (R264, U15). -/
  | notLoaded
  /-- Blocked on `READY` (R232, R265). -/
  | waiting
  /-- A step is enabled (R100). -/
  | enabled
  deriving DecidableEq, Repr

/-- What the execution agent can do next (R100, R210, R232, R264). -/
def State.gate (s : State) : Gate :=
  match s.halt with
  | .halted c => .halted c
  | .running =>
    if s.params.wellFormed then
      if s.loaded then
        if s.ready then .enabled else .waiting
      else .notLoaded
    else .misconfigured

/-- The state whose opcode is fetched: the host has moved, the key snapshot has been read, the host has moved again, and no
update has been returned yet (R233, R100 phase 5). A step touches no cell, so the second turn stands for every host action
between the read and what follows the step (log entry 7). -/
def State.openStep (s : State) : State := { s.hostTurn.readKeys.hostTurn with update := none }

/-- Phase 3: `pc <- (a + 2) mod 4096`, before decode and execute (R100). -/
def State.advance (s : State) : State := s.setPc (s.pc + 2)

/-- The end of an iteration: the timer tick, the publication of an update, a turn of the host, the buzzer flag (R100 phases
7 and 8, R233). None of it happens after a fatal condition (R210, R234). -/
def State.endStep (s : State) : State :=
  match s.halt with
  | .running => s.timerTick.publishUpdate.hostTurn.writeBuzzer
  | .halted _ => s

/-- The end of an iteration, after an execute phase that answers a next state. -/
def closeStep : Result → Result
  | .next t => .next t.endStep
  | .fault f => .fault f
  | .refused r => .refused r

end Sys2Proof.Machine
end

