-- ==== Sys2Proof/Machine/Flags.lean ====
section
/-! DEFINITION. The arithmetic results and the flag values they give VF (10_state.md R11; 42_alu.md R142, R136 to R140). -/

namespace Sys2Proof.Machine

/-- The carry of `a + b`: 1 if the exact sum exceeds 255, else 0 (R136). -/
def carryFlag (a b : Byte) : Byte := if a.toNat + b.toNat > 255 then 1#8 else 0#8

/-- The borrow of `a - b`: 1 exactly when the subtraction underflows, the polarity R137 says to replicate (R137, R139). -/
def borrowFlag (a b : Byte) : Byte := if a.toNat < b.toNat then 1#8 else 0#8

/-- The bit a right shift drops: bit 0, as 0 or 1 (R138). -/
def shrFlag (a : Byte) : Byte := a &&& 0x01#8

/-- The bit a left shift drops: bit 7, left as 0x80 or 0x00 (R140). -/
def shlFlag (a : Byte) : Byte := a &&& 0x80#8

/-- `VF <- f`, the implicit flag write (R11). -/
def State.setFlag (s : State) (f : Byte) : State := s.setReg vF f

end Sys2Proof.Machine
end

