-- ==== Sys2Proof/Machine/Operands.lean ====
section
/-! DEFINITION. The operand forms: index plus offset (43_index_memory.md), a register as an address part, as a key index
and as a font digit, the BCD digits, and the block of registers V0 to Vx. -/

namespace Sys2Proof.Machine

/-- `zext_12` of a register value (R106, R151). -/
def zext12 (b : Byte) : Addr := b.setWidth 12

/-- The effective address `(I + k) mod 4096` (R45). -/
def State.indexed (s : State) (k : Nat) : Addr := s.index + BitVec.ofNat 12 k

/-- The glyph address `0x050 + 5 * Vx`, formed wide enough not to wrap and with no mask (R152). -/
def glyphAddr (b : Byte) : Addr := 0x050#12 + 5#12 * zext12 b

/-- The hundreds, tens and ones digits of a byte (R153). -/
def bcdDigits (b : Byte) : List Byte :=
  [BitVec.ofNat 8 (b.toNat / 100), BitVec.ofNat 8 (b.toNat / 10 % 10), BitVec.ofNat 8 (b.toNat % 10)]

/-- The values of V0 to Vx inclusive (R154). -/
def State.regBlock (s : State) (x : RegNum) : List Byte := s.v.toList.take (x.toNat + 1)

/-- The first `n` registers loaded from `I`, `I + 1`, …, in rising order (R155). -/
def State.loadRegs (s : State) : Nat → State
  | 0 => s
  | n + 1 => (s.loadRegs n).setReg (BitVec.ofNat 4 n) (s.readByte (s.indexed n))

/-- The key a register value selects, or `none` when the value exceeds 15 (R190, R213): the whole byte is the index. -/
def State.keyAt (s : State) (k : Byte) : Option Bool :=
  if h : k.toNat < 16 then some s.snapshot[k.toNat] else none

/-- The lowest-numbered pressed key, if any (R192). -/
def lowestKey (ks : Keys) : Option Nat := (List.range 16).find? fun i => if h : i < 16 then ks[i] else false

/-- `pc <- (pc + 2) mod 4096` when the condition holds: the skip (41_skip.md). -/
def State.skipIf (s : State) (c : Bool) : State := s.setPc (if c then s.pc + 2 else s.pc)

end Sys2Proof.Machine
end

