-- ==== Sys2Proof/Machine/Alu.lean ====
section
/-! DEFINITION. Register load, arithmetic, logic, shifts and random (42_alu.md R130 to R142). Operands are read before
anything is written; where VF is the destination, writes happen in the order each rule lists (D11). -/

namespace Sys2Proof.Machine

/-- `6xkk`, LD Vx, kk (R130). -/
def execLdImm (x : RegNum) (kk : Byte) (s : State) : Result := .next (s.setReg x kk)

/-- `7xkk`, ADD Vx, kk: wrapping, no flag (R131). -/
def execAddImm (x : RegNum) (kk : Byte) (s : State) : Result := .next (s.setReg x (s.reg x + kk))

/-- `8xy0`, LD Vx, Vy (R132). -/
def execLdReg (x y : RegNum) (s : State) : Result := .next (s.setReg x (s.reg y))

/-- `8xy1`, OR Vx, Vy: no flag (R133). -/
def execOrReg (x y : RegNum) (s : State) : Result := .next (s.setReg x (s.reg x ||| s.reg y))

/-- `8xy2`, AND Vx, Vy: no flag (R134). -/
def execAndReg (x y : RegNum) (s : State) : Result := .next (s.setReg x (s.reg x &&& s.reg y))

/-- `8xy3`, XOR Vx, Vy: no flag (R135). -/
def execXorReg (x y : RegNum) (s : State) : Result := .next (s.setReg x (s.reg x ^^^ s.reg y))

/-- `8xy4`, ADD Vx, Vy: the sum, then VF the carry (R136). -/
def execAddReg (x y : RegNum) (s : State) : Result :=
  .next ((s.setReg x (s.reg x + s.reg y)).setFlag (carryFlag (s.reg x) (s.reg y)))

/-- `8xy5`, SUB Vx, Vy: the difference, then VF the borrow (R137). -/
def execSub (x y : RegNum) (s : State) : Result :=
  .next ((s.setReg x (s.reg x - s.reg y)).setFlag (borrowFlag (s.reg x) (s.reg y)))

/-- The two writes of a shift: VF first, then Vx shifted as read after the VF write (R138, R140, D11). -/
def State.shiftReg (s : State) (x : RegNum) (flag shift : Byte → Byte) : State :=
  let s' := s.setFlag (flag (s.reg x))
  s'.setReg x (shift (s'.reg x))

/-- `8xy6`, SHR Vx: `y` is ignored (R138). -/
def execShr (x _y : RegNum) (s : State) : Result := .next (s.shiftReg x shrFlag (· >>> 1))

/-- `8xy7`, SUBN Vx, Vy: Vy - Vx, then VF the borrow (R139). -/
def execSubn (x y : RegNum) (s : State) : Result :=
  .next ((s.setReg x (s.reg y - s.reg x)).setFlag (borrowFlag (s.reg y) (s.reg x)))

/-- `8xyE`, SHL Vx: `y` is ignored (R140). -/
def execShl (x _y : RegNum) (s : State) : Result := .next (s.shiftReg x shlFlag (· <<< 1))

/-- `Cxkk`, RND Vx, kk: the step's free random byte and `kk` (R141, R225). -/
def execRnd (x : RegNum) (kk : Byte) (s : State) : Result := .next (s.setReg x (s.rand &&& kk))

end Sys2Proof.Machine
end

