-- ==== Sys2Proof/Machine/Display.lean ====
section
/-! DEFINITION. The display buffer and the sprite draw (10_state.md R20; 44_display.md R170 to R172). -/

namespace Sys2Proof.Machine

/-- `Disp[y][x]`; off outside the grid, where no instruction reads. -/
def pixelAt (d : Display) (x y : Nat) : Bool :=
  match d[y]? with
  | some row => row[x]?.getD false
  | none => false

/-- `Disp[y][x] <- b`; outside the grid nothing is written. -/
def setPixel (d : Display) (x y : Nat) (b : Bool) : Display :=
  match d[y]? with
  | some row => d.setIfInBounds y (row.setIfInBounds x b)
  | none => d

/-- A draw in progress: the buffer and the sticky collision flag. -/
structure Canvas where
  disp : Display
  hit : Bool
  deriving DecidableEq, Repr

/-- One sprite pixel `b` at column `x`, row `y`: clipped beyond column 63 or row 31, else a collision when both pixels are
on, and the XOR (R172). The loops of R172 break at the first clipped column or row; every later one is clipped too, so
passing over them is the same. -/
def Canvas.plot (c : Canvas) (x y : Nat) (b : Bool) : Canvas :=
  if x > 63 ∨ y > 31 then c
  else ⟨setPixel c.disp x y (pixelAt c.disp x y ^^ b), c.hit || (b && pixelAt c.disp x y)⟩

/-- The first `k` bits of a sprite byte, most significant bit first, from column `x0` of row `y` (R172, R43). -/
def Canvas.plotBits (c : Canvas) (x0 y : Nat) (b : Byte) : Nat → Canvas
  | 0 => c
  | k + 1 => (c.plotBits x0 y b k).plot (x0 + k) y (b.getLsbD (7 - k))

/-- The first `r` rows of a sprite, top row first, from column `x0` and row `y0` (R172). -/
def Canvas.plotRows (c : Canvas) (x0 y0 : Nat) (row : Nat → Byte) : Nat → Canvas
  | 0 => c
  | r + 1 => (c.plotRows x0 y0 row r).plotBits x0 (y0 + r) (row r) 8

/-- The display buffer replaced. -/
def State.setDisp (s : State) (d : Display) : State := { s with disp := d }

/-- `update <- Some(Disp)`: the step returns the whole buffer as it stands (R170). -/
def State.emitUpdate (s : State) : State := { s with update := some s.disp }

end Sys2Proof.Machine
end

