-- ==== Sys2Proof/Machine/DisplayInstr.lean ====
section
/-! DEFINITION. The display instructions (44_display.md R171, R172). -/

namespace Sys2Proof.Machine

/-- `00E0`, CLS: all pixels off, an update always (R171, R170). -/
def execCls (s : State) : Result := .next (s.setDisp blankDisplay).emitUpdate

/-- The draw of an `n`-row sprite at `I` from `(Vx mod 64, Vy mod 32)`, coordinates as read before VF is cleared (R172). -/
def State.drawn (s : State) (x y : RegNum) (n : Nibble) : Canvas :=
  Canvas.plotRows ⟨s.disp, false⟩ ((s.reg x).toNat % 64) ((s.reg y).toNat % 32)
    (fun r => s.readByte (s.indexed r)) n.toNat

/-- `Dxyn`, DRW Vx, Vy, n: the sprite drawn, VF the collision, an update always (R172, R170). -/
def execDrw (x y : RegNum) (n : Nibble) (s : State) : Result :=
  .next (((s.setFlag (if (s.drawn x y n).hit then 1#8 else 0#8)).setDisp (s.drawn x y n).disp).emitUpdate)

end Sys2Proof.Machine
end

