-- ==== Sys2Proof/Machine/Flow.lean ====
section
/-! DEFINITION. The NOP class, return, jump, call, indexed jump (40_step_and_flow.md R102 to R106). In every meaning `pc`
has already been advanced (R100). -/

namespace Sys2Proof.Machine

/-- The NOP class: nothing (R102). Run by `step` for a word of `NOP_SET`; it is no row of the table. -/
def execNop (s : State) : Result := .next s

/-- `00EE`, RET: `pc <- Pop()` (R103). -/
def execRet (s : State) : Result := .next (s.dropTop.setPc s.topAddr)

/-- `1nnn`, JP nnn: `pc <- nnn` (R104). -/
def execJp (nnn : Addr) (s : State) : Result := .next (s.setPc nnn)

/-- `2nnn`, CALL nnn: `Push(pc)`, fatal on a full stack before anything is written, then `pc <- nnn` (R105, R16, R214). -/
def execCall (nnn : Addr) (s : State) : Result :=
  if s.stackFull then raiseFatal (.stackOverflow s.pc) s
  else .next ((s.pushAddr s.pc).setPc nnn)

/-- `Bnnn`, JP V0, nnn: `pc <- (nnn + V0) mod 4096` (R106). -/
def execJpV0 (nnn : Addr) (s : State) : Result := .next (s.setPc (nnn + zext12 (s.reg 0x0#4)))

end Sys2Proof.Machine
end

