-- ==== Sys2Proof/Machine/IndexMemory.lean ====
section
/-! DEFINITION. The index register and the memory instructions (43_index_memory.md R150 to R155). `I` is not changed by
an access (D12). -/

namespace Sys2Proof.Machine

/-- `Annn`, LD I, nnn (R150). -/
def execLdI (nnn : Addr) (s : State) : Result := .next (s.setIndex nnn)

/-- `Fx1E`, ADD I, Vx: mod 4096, no flag (R151). -/
def execAddI (x : RegNum) (s : State) : Result := .next (s.setIndex (s.index + zext12 (s.reg x)))

/-- `Fx29`, LD F, Vx (R152). -/
def execLdF (x : RegNum) (s : State) : Result := .next (s.setIndex (glyphAddr (s.reg x)))

/-- `Fx33`, LD B, Vx: hundreds, tens, ones at `I`, `I + 1`, `I + 2` (R153). -/
def execBcd (x : RegNum) (s : State) : Result := .next (s.writeBytes s.index (bcdDigits (s.reg x)))

/-- `Fx55`, LD [I], Vx: V0 to Vx stored from `I` (R154). -/
def execStore (x : RegNum) (s : State) : Result := .next (s.writeBytes s.index (s.regBlock x))

/-- `Fx65`, LD Vx, [I]: V0 to Vx loaded from `I` (R155). -/
def execLoad (x : RegNum) (s : State) : Result := .next (s.loadRegs (x.toNat + 1))

end Sys2Proof.Machine
end

