-- ==== Sys2Proof/Machine/KeyTimer.lean ====
section
/-! DEFINITION. The key and timer instructions (45_key_timer.md R190 to R195). -/

namespace Sys2Proof.Machine

/-- The key test shared by `Ex9E` and `ExA1`: fatal when Vx exceeds 15, before any write; else the skip on the key's
level (R190, R191, R213, D10). -/
def State.skipOnKey (s : State) (x : RegNum) (wanted : Bool) : Result :=
  match s.keyAt (s.reg x) with
  | none => raiseFatal (.keyIndexOutOfRange (s.reg x)) s
  | some pressed => .next (s.skipIf (pressed == wanted))

/-- `Ex9E`, SKP Vx (R190). -/
def execSkp (x : RegNum) (s : State) : Result := s.skipOnKey x true

/-- `ExA1`, SKNP Vx (R191). -/
def execSknp (x : RegNum) (s : State) : Result := s.skipOnKey x false

/-- `Fx07`, LD Vx, DT: before this step's tick (R193). -/
def execLdVxDT (x : RegNum) (s : State) : Result := .next (s.setReg x s.dt)

/-- `Fx0A`, LD Vx, K: the lowest pressed key, or `pc` moved back by 2 mod 4096 to poll again (R192). -/
def execLdKey (x : RegNum) (s : State) : Result :=
  .next (match lowestKey s.snapshot with
    | none => s.setPc (s.pc - 2)
    | some k => s.setReg x (BitVec.ofNat 8 k))

/-- `Fx15`, LD DT, Vx (R194). -/
def execLdDT (x : RegNum) (s : State) : Result := .next (s.setDt (s.reg x))

/-- `Fx18`, LD ST, Vx (R195). -/
def execLdST (x : RegNum) (s : State) : Result := .next (s.setSt (s.reg x))

end Sys2Proof.Machine
end

