-- ==== Sys2Proof/Machine/Skip.lean ====
section
/-! DEFINITION. The conditional skips on registers (41_skip.md R120 to R123). -/

namespace Sys2Proof.Machine

/-- `3xkk`, SE Vx, kk (R120). -/
def execSeImm (x : RegNum) (kk : Byte) (s : State) : Result := .next (s.skipIf (s.reg x == kk))

/-- `4xkk`, SNE Vx, kk (R121). -/
def execSneImm (x : RegNum) (kk : Byte) (s : State) : Result := .next (s.skipIf (s.reg x != kk))

/-- `5xy0`, SE Vx, Vy (R122). -/
def execSeReg (x y : RegNum) (s : State) : Result := .next (s.skipIf (s.reg x == s.reg y))

/-- `9xy0`, SNE Vx, Vy (R123). -/
def execSneReg (x y : RegNum) (s : State) : Result := .next (s.skipIf (s.reg x != s.reg y))

end Sys2Proof.Machine
end

