-- ==== Sys2Proof/Machine/Step.lean ====
section
/-! DEFINITION. One step: one iteration of the scheduler loop (60_exceptions.md R233) around one step of the execution
agent (40_step_and_flow.md R100). -/

namespace Sys2Proof.Machine

/-- One iteration of the execution agent, with the host's turns in its gaps (R100, R233). A halted core is a fault (R210);
before a Load no step is enabled (R264); before `READY` the agent waits and only the host moves (R232). -/
def step (s : State) : Host.Outcome State Fault Refusal :=
  match s.gate with
  | .halted c => .fault (.halted c)
  | .misconfigured => .refused .misconfigured
  | .notLoaded => .refused .notLoaded
  | .waiting => .next s.hostTurn
  | .enabled =>
    match decodeWord s.openStep.params.nopSet s.openStep.fetchWord with
    | .nop => closeStep (execNop s.openStep.advance)
    | .instr i => closeStep (exec i s.openStep.advance)
    | .illegal op => closeStep (raiseFatal (.decodeError op) s.openStep.advance)

/-- The state with a table word stored where the next opcode is fetched, as a loaded program on a core released to run
(log entry 3). -/
def State.withFetchWord (s : State) (nbits w : Nat) : State :=
  { s.writeBytes s.pc (bytesOfWord (tableWord nbits w)) with loaded := true, ready := true }

end Sys2Proof.Machine
end

