-- ==== Sys2Proof/Machine/Launch.lean ====
section
/-! DEFINITION. Load, the boot step between creation and the first step (70_reset_and_hazards.md R262 to R264). -/

namespace Sys2Proof.Machine

/-- `LOAD_BASE` (R4, R48). -/
def loadBase : Addr := 0x200#12

/-- The core after a Load that succeeds: the bytes at 0x200 and up, `pc` at 0x200 (R262), and the boot step recorded. -/
def State.withRom (s : State) (rom : List Byte) : State :=
  { (s.writeBytes loadBase rom).setPc loadBase with loaded := true }

/-- `Load(ROM)` (R262, R212): a program that does not fit is fatal and nothing is copied (D24). Load is defined once, on a
fresh state (R262): a loaded core refuses it, a halted core is a fault. -/
def State.loadRom (s : State) (rom : List Byte) : Result :=
  match s.halt with
  | .halted c => .fault (.halted c)
  | .running =>
    if s.loaded then .refused .alreadyLoaded
    else if romFits rom then .next (s.withRom rom)
    else raiseFatal (.romTooLarge rom.length) s

end Sys2Proof.Machine
end

