-- ==== Sys2Proof/Safety.lean ====
section
/-! DEFINITION. The terms in which claims about the machine are stated: what a run must keep (the invariant), what an
instruction leaves alone (frames), and the parked state of 70_reset_and_hazards.md R267. -/

namespace Sys2Proof.Machine

/-! ### The invariant -/

/-- What every reachable state keeps (10_state.md R27, with 60_exceptions.md R229, R231, R233 for the cells). The bounds on
`pc`, `I`, stack entries and bytes are their types. -/
structure State.Inv (s : State) : Prop where
  /-- Memory keeps its canonical form, so that equal memories are equal data. -/
  memCanonical : Memory.wf s.params.font s.mem = true
  /-- `0 <= TICK < TIMER_DIVISOR` between steps (R19, R27). -/
  tickBelow : s.tick < s.params.timerDivisor
  /-- The stack holds at most `STACK_DEPTH` entries (R16, R27). -/
  stackBounded : ∀ d, s.params.stackDepth = some d → s.stack.length ≤ d
  /-- `BUZZER` shows `ST != 0` between iterations (R231, R233). -/
  buzzerTracks : s.buzzer = s.buzzerActive
  /-- The last frame published is the display as it stands (R170, R229). -/
  frameTracks : s.frame.data = s.disp
  /-- An update returned is the whole display as it stands (R170). -/
  updateTracks : ∀ d, s.update = some d → d = s.disp

/-! ### Safe states -/

/-- The core has not halted (R22). -/
def State.Running (s : State) : Prop := s.halt = .running

/-- A step is enabled: running, configured within R5's constraints, loaded and released (R100, R264, R265). -/
structure State.Enabled (s : State) : Prop where
  running : s.halt = .running
  configured : s.params.wellFormed = true
  isLoaded : s.loaded = true
  isReady : s.ready = true

/-! ### Creation -/

/-- The machine right after creation with the open parameters `p` (R5, R260); `State.reset` is the one with the defaults. -/
def State.created (p : Params) : State := { State.reset with params := p }

/-! ### Frames: what an instruction leaves unchanged -/

/-- Every byte of memory reads as before. -/
def SameMemory (s t : State) : Prop := ∀ a, t.readByte a = s.readByte a

/-- Nothing but general registers (VF among them) has changed: every other field is as before, and every byte of memory
reads as before. -/
def OnlyRegs (s t : State) : Prop := t = { s with v := t.v } ∧ SameMemory s t

/-- Nothing but `pc` has changed. -/
def OnlyPc (s t : State) : Prop := t = { s with pc := t.pc } ∧ SameMemory s t

/-- Nothing but `pc` and the stack has changed. -/
def OnlyPcStack (s t : State) : Prop := t = { s with pc := t.pc, stack := t.stack } ∧ SameMemory s t

/-- Nothing but `I` has changed. -/
def OnlyIndex (s t : State) : Prop := t = { s with index := t.index } ∧ SameMemory s t

/-- Nothing but bytes of memory has changed; the statement says which. -/
def OnlyMem (s t : State) : Prop := t = { s with mem := t.mem }

/-- Nothing but the halt latch has changed (R210). -/
def OnlyHalt (s t : State) : Prop := t = { s with halt := t.halt } ∧ SameMemory s t

/-! ### Stores -/

/-- The byte at `a` after `Fx55` from `I`: register `a - I` where the block V0 to Vx reaches, mod 4096, else the byte of before. -/
def State.byteAfterStore (s : State) (x : RegNum) (a : Addr) : Byte :=
  if (a - s.index).toNat ≤ x.toNat then s.reg (BitVec.ofNat 4 (a - s.index).toNat) else s.readByte a

/-- The byte at `a` after `Fx33` at `I`: a digit of Vx at `I`, `I + 1`, `I + 2`, mod 4096, else the byte of before. -/
def State.byteAfterBcd (s : State) (x : RegNum) (a : Addr) : Byte :=
  if a = s.index then BitVec.ofNat 8 ((s.reg x).toNat / 100)
  else if a = s.index + 1 then BitVec.ofNat 8 ((s.reg x).toNat / 10 % 10)
  else if a = s.index + 2 then BitVec.ofNat 8 ((s.reg x).toNat % 10)
  else s.readByte a

/-! ### Parked (R267) -/

/-- The core is parked at `p`: `pc = p`, the word at `p` is the jump to itself, and the core is running. -/
def State.ParkedAt (s : State) (p : Addr) : Prop :=
  s.pc = p ∧ s.fetchWord = (0x1#4 ++ p : Word) ∧ s.halt = .running

/-! ### Display instructions (R170) -/

/-- The step about to be taken executes `00E0` or `Dxyn`: the opcode at `pc` is no NOP word and decodes to one of them. -/
def State.RunsDisplayInstruction (s : State) : Prop :=
  s.fetchWord ∉ s.params.nopSet ∧
    (decode s.fetchWord = some .cls ∨ ∃ x y n, decode s.fetchWord = some (.drw x y n))

/-! ### Sprites (R172) -/

/-- The sprite pixel that falls on column `px`, row `py` when `n` rows are drawn from `(x0, y0)`, bit 7 of a row leftmost;
off where the sprite does not reach. -/
def spritePixel (x0 y0 n : Nat) (row : Nat → Byte) (px py : Nat) : Bool :=
  decide (x0 ≤ px ∧ px < x0 + 8 ∧ y0 ≤ py ∧ py < y0 + n) && (row (py - y0)).getLsbD (7 - (px - x0))

/-- The sprite pixel of `Dxyn` on column `px`, row `py`: from `(Vx mod 64, Vy mod 32)`, rows read at `I + r` (R172). -/
def State.spriteOn (s : State) (x y : RegNum) (n : Nibble) (px py : Nat) : Bool :=
  spritePixel ((s.reg x).toNat % 64) ((s.reg y).toNat % 32) n.toNat
    (fun r => s.readByte (s.index + BitVec.ofNat 12 r)) px py

/-- Some visible pixel is on and has a 1 sprite bit drawn onto it (R172). -/
def State.Collides (s : State) (x y : RegNum) (n : Nibble) : Prop :=
  ∃ px py, px < 64 ∧ py < 32 ∧ s.spriteOn x y n px py = true ∧ pixelAt s.disp px py = true

/-- The state an answer gives, changed by `f`; a fault or a refusal is as it was. -/
def mapNext (f : State → State) : Result → Result
  | .next t => .next (f t)
  | .fault e => .fault e
  | .refused e => .refused e

end Sys2Proof.Machine

namespace Sys2Proof

/-! ### Whole-machine vocabulary -/

/-- The instructions that write VF as a flag (R11). -/
def Instr.setsFlag : Instr → Bool
  | .addReg _ _ | .sub _ _ | .shr _ _ | .subn _ _ | .shl _ _ | .drw _ _ _ => true
  | .cls | .ret | .jp _ | .call _ | .seImm _ _ | .sneImm _ _ | .seReg _ _ | .ldImm _ _ | .addImm _ _ | .ldReg _ _
  | .orReg _ _ | .andReg _ _ | .xorReg _ _ | .sneReg _ _ | .ldI _ | .jpV0 _ | .rnd _ _ | .skp _ | .sknp _ | .ldVxDT _
  | .ldKey _ | .ldDT _ | .ldST _ | .addI _ | .ldF _ | .bcd _ | .store _ | .load _ => false

/-- The instructions that may leave `pc` elsewhere than the advance did (R14): the flow, the skips, the key wait. -/
def Instr.movesPc : Instr → Bool
  | .ret | .jp _ | .call _ | .jpV0 _ | .seImm _ _ | .sneImm _ _ | .seReg _ _ | .sneReg _ _ | .skp _ | .sknp _
  | .ldKey _ => true
  | .cls | .ldImm _ _ | .addImm _ _ | .ldReg _ _ | .orReg _ _ | .andReg _ _ | .xorReg _ _ | .addReg _ _ | .sub _ _
  | .shr _ _ | .subn _ _ | .shl _ _ | .ldI _ | .rnd _ _ | .drw _ _ _ | .ldVxDT _ | .ldDT _ | .ldST _ | .addI _
  | .ldF _ | .bcd _ | .store _ | .load _ => false

/-- The general register is a destination the instruction names (the `w` columns Vx and V0 to Vx of R12). -/
def Instr.writesReg : Instr → RegNum → Bool
  | .ldImm x _, r | .addImm x _, r | .ldReg x _, r | .orReg x _, r | .andReg x _, r | .xorReg x _, r | .addReg x _, r
  | .sub x _, r | .shr x _, r | .subn x _, r | .shl x _, r | .rnd x _, r | .ldVxDT x, r | .ldKey x, r => r == x
  | .load x, r => decide (r.toNat ≤ x.toNat)
  | .cls, _ | .ret, _ | .jp _, _ | .call _, _ | .seImm _ _, _ | .sneImm _ _, _ | .seReg _ _, _ | .sneReg _ _, _
  | .ldI _, _ | .jpV0 _, _ | .drw _ _ _, _ | .skp _, _ | .sknp _, _ | .ldDT _, _ | .ldST _, _ | .addI _, _ | .ldF _, _
  | .bcd _, _ | .store _, _ => false

end Sys2Proof
end

