-- ==== Sys2Proof/Certificates/Slice0/Obligations.lean ====
section
/-! DEFINITION. The statements for the provers. Statements about `exec` are about the execute phase, in which `pc` has
already been advanced by 2 (40_step_and_flow.md R100); those about `step` are about one whole scheduler iteration. -/

open Sys2Proof Sys2Proof.Machine

/-! ### Encoding and decoding -/

/-- Decode and encode agree for every instruction, every operand at every value its field admits (30_encoding.md sections
1 to 3). -/
def Obligations.DecodeOfEncodeIsTheInstruction : Prop :=
  ∀ i : Instr, decode (encode i) = some i

/-- Every opcode that decodes is the encoding of what it decodes to: no bit of a legal opcode is dropped, the ignored `y` of
the shifts included (30_encoding.md sections 1 to 3). -/
def Obligations.DecodedOpcodeEncodesBack : Prop :=
  ∀ (op : Word) (i : Instr), decode op = some i → encode i = op

/-- An opcode decodes exactly when it belongs to one of the 34 rows, to an instruction of that row, and to no other row
(R74: "the rows are pairwise disjoint, so at most one matches"). -/
def Obligations.DecodeFollowsTheOpcodeTable : Prop :=
  opcodeTable.length = 34 ∧
  (∀ (op : Word) (i : Instr), decode op = some i → i.row ∈ opcodeTable ∧ i.row.matchesWord op = true) ∧
  (∀ (op : Word) (r : OpcodeRow), r ∈ opcodeTable → r.matchesWord op = true → ∃ i, decode op = some i ∧ i.row = r)

/-- The illegal opcodes, family by family, and no others (the table of R76). -/
def Obligations.IllegalOpcodesByFamily : Prop :=
  ∀ op : Word, decode op = none ↔
    ((op.extractLsb' 12 4 = 0x0#4 ∧ op ≠ 0x00E0#16 ∧ op ≠ 0x00EE#16) ∨
     (op.extractLsb' 12 4 = 0x5#4 ∧ op.extractLsb' 0 4 ≠ 0x0#4) ∨
     (op.extractLsb' 12 4 = 0x8#4 ∧ op.extractLsb' 0 4 ∈ [0x8#4, 0x9#4, 0xA#4, 0xB#4, 0xC#4, 0xD#4, 0xF#4]) ∨
     (op.extractLsb' 12 4 = 0x9#4 ∧ op.extractLsb' 0 4 ≠ 0x0#4) ∨
     (op.extractLsb' 12 4 = 0xE#4 ∧ op.extractLsb' 0 8 ∉ [0x9E#8, 0xA1#8]) ∨
     (op.extractLsb' 12 4 = 0xF#4 ∧ op.extractLsb' 0 8 ∉
        [0x07#8, 0x0A#8, 0x15#8, 0x18#8, 0x1E#8, 0x29#8, 0x33#8, 0x55#8, 0x65#8]))

/-- Opcodes written out from the table's patterns decode to the instructions they stand for (95_test_vectors.md 2.1). -/
def Obligations.SampleOpcodesDecode : Prop :=
  decode 0x00E0#16 = some .cls ∧ decode 0x00EE#16 = some .ret ∧ decode 0x1FFF#16 = some (.jp 0xFFF) ∧
  decode 0x3A05#16 = some (.seImm 0xA 0x05) ∧ decode 0x5120#16 = some (.seReg 0x1 0x2) ∧
  decode 0x8FF7#16 = some (.subn 0xF 0xF) ∧ decode 0x812E#16 = some (.shl 0x1 0x2) ∧
  decode 0xD125#16 = some (.drw 0x1 0x2 0x5) ∧ decode 0xEFA1#16 = some (.sknp 0xF) ∧
  decode 0xFF65#16 = some (.load 0xF) ∧ decode 0x0000#16 = none ∧ decode 0x8128#16 = none ∧
  decode 0x9AB1#16 = none ∧ decode 0xE19F#16 = none ∧ decode 0xF085#16 = none

/-! ### The step -/

/-- The fetched opcode is the byte at `pc` times 256 plus the byte at `(pc + 1) mod 4096` (R43), at any `pc`, even or odd. That no
alignment is asked for is the spec's decision D6 (R44, log entry 26), and the wrap is its decision D2 (log entry 12). -/
def Obligations.FetchIsBigEndianAndWraps : Prop :=
  ∀ s : State, s.fetchWord.toNat =
    256 * (s.readByte s.pc).toNat + (s.readByte (BitVec.ofNat 12 ((s.pc.toNat + 1) % 4096))).toNat

/-- A step runs the decoded instruction: on an enabled core whose opcode at `pc` is no NOP word and decodes to `i`, the step
is `exec i` at the state with `pc` advanced by 2, the key snapshot read and nothing else of the Machine State changed, followed,
unless the core has halted, by the timer tick, the publication of an update and the buzzer flag (R100, R233). That the host has
one turn before the read of `KEYS`, one after it and one between the publication and the buzzer flag, and that these three
stand for every interleaving, is the model's reading (log entries 5 and 7). -/
def Obligations.StepRunsTheDecodedInstruction : Prop :=
  ∀ (s : State) (i : Instr), s.Enabled → s.fetchWord ∉ s.params.nopSet → decode s.fetchWord = some i →
    ∃ p : State,
      p = { s with pc := s.pc + 2, update := none, keys := p.keys, frame := p.frame, rand := p.rand,
                   snapshot := s.hostTurn.keys, hostQueue := p.hostQueue, hostClock := p.hostClock } ∧
      p.frame.data = s.frame.data ∧
      p = s.openStep.advance ∧
      ∀ t, exec i p = .next t →
        step s = .next (if t.halt = .running then t.timerTick.publishUpdate.hostTurn.writeBuzzer else t)

/-- A word of `NOP_SET` changes no register, memory or display state, advances `pc` by 2, returns and publishes no update, and
the timer tick still runs (R102). -/
def Obligations.NopWordOnlyAdvances : Prop :=
  ∀ s : State, s.Enabled → s.fetchWord ∈ s.params.nopSet →
    ∃ t, step s = .next t ∧ t.pc = s.pc + 2 ∧ t.v = s.v ∧ t.index = s.index ∧ t.stack = s.stack ∧ t.disp = s.disp ∧
      SameMemory s t ∧ t.update = none ∧ t.halt = .running ∧ t.frame.data = s.frame.data ∧
      (s.frame.consumed = true → t.frame.consumed = true) ∧
      t.tick = s.timerTick.tick ∧ t.dt = s.timerTick.dt ∧ t.st = s.timerTick.st

/-- An illegal opcode halts the core: `HALT` holds the word, `pc` is advanced by 2, everything else of the Machine State is as
before, no tick runs and nothing is returned or published: the frame cell is as the host left it while the step was opened
(60_exceptions.md section 1; that the halting step answers a next state is the model's reading, log entry 4). -/
def Obligations.IllegalOpcodeHalts : Prop :=
  ∀ s : State, s.Enabled → s.fetchWord ∉ s.params.nopSet → decode s.fetchWord = none →
    ∃ t, step s = .next t ∧ t.halt = .halted (.decodeError s.fetchWord) ∧
      t = { s with pc := s.pc + 2, halt := t.halt, update := none, keys := t.keys, frame := t.frame, rand := t.rand,
                   snapshot := t.snapshot, hostQueue := t.hostQueue, hostClock := t.hostClock } ∧
      t.frame = s.openStep.frame ∧ t.frame.data = s.frame.data ∧
      (s.frame.consumed = true → t.frame.consumed = true) ∧ SameMemory s t

/-- A halted core takes no further step: the step is the fault that names the cause (60_exceptions.md section 1, D17; that the
stop is a fault of the next step is the model's reading, log entry 4). -/
def Obligations.HaltedCoreNeverSteps : Prop :=
  ∀ (s : State) (c : FatalCause), s.halt = .halted c → step s = .fault (.halted c)

/-- No step is enabled before a Load, nor under parameters outside their constraints: the step is refused by name
(70_reset_and_hazards.md section 1; the spec's decisions D8 and D14, log entries 3 and 29). -/
def Obligations.StepRefusedBeforeLoadOrMisconfigured : Prop :=
  ∀ s : State, s.halt = .running →
    (s.params.wellFormed = false → step s = .refused .misconfigured) ∧
    (s.params.wellFormed = true → s.loaded = false → step s = .refused .notLoaded)

/-- Before `READY` the execution agent waits: only the host moves, and nothing of the Machine State changes nor is published; and
`READY` never goes back to false (R232; that the wait is a next state is log entry 19). -/
def Obligations.WaitsUntilReadyAndReadyStays : Prop :=
  (∀ s : State, s.halt = .running → s.params.wellFormed = true → s.loaded = true → s.ready = false →
    ∃ t, step s = .next t ∧
      t = { s with keys := t.keys, frame := t.frame, ready := t.ready, rand := t.rand, hostQueue := t.hostQueue,
                   hostClock := t.hostClock } ∧ t.frame.data = s.frame.data ∧
      (s.frame.consumed = true → t.frame.consumed = true)) ∧
  (∀ s t : State, step s = .next t → s.ready = true → t.ready = true)

/-- Every enabled step answers a next state, in one of two ways (R101): it completes, and the tick has run (R219) and `BUZZER`
shows `ST != 0` (R231); or it raised a fatal condition, and the Machine State is that of before with `pc` advanced by 2, no
tick, no update, `BUZZER` as before and nothing published (R210, with the latch and the next state as in log entry 4). `Fx0A`,
which looks like a wait, completes every time. -/
def Obligations.EnabledStepCompletesOrHalts : Prop :=
  ∀ s : State, s.Enabled →
    ∃ t, step s = .next t ∧
      ((t.halt = .running ∧ t.tick = s.timerTick.tick ∧ t.buzzer = (t.st != 0#8)) ∨
       (∃ c, t.halt = .halted c ∧
          t = { s with pc := s.pc + 2, halt := .halted c, update := none, keys := t.keys, frame := t.frame,
                       rand := t.rand, snapshot := t.snapshot, hostQueue := t.hostQueue, hostClock := t.hostClock } ∧
          t.frame = s.openStep.frame ∧ t.frame.data = s.frame.data ∧
          (s.frame.consumed = true → t.frame.consumed = true))) ∧
      (∀ x, decode s.fetchWord = some (.ldKey x) → t.halt = .running)

/-- The timer tick: `TICK` counts up to the divisor, then returns to 0 and both timers go down by 1, saturating at 0
(60_exceptions.md section 2). The divisor of a clock of `num / den` steps per second is the integer nearest to a sixtieth of it,
halves away from zero, so 60 gives 1 and 600 gives 10, and it is at least 1 exactly from 30 on. The equality test and the
rounding are the spec's decision D14 (log entry 18). -/
def Obligations.TimerTickDecrementsOnTheDivisor : Prop :=
  (∀ s : State,
    (s.tick + 1 ≠ s.params.timerDivisor → s.timerTick = { s with tick := s.tick + 1 }) ∧
    (s.tick + 1 = s.params.timerDivisor →
      s.timerTick = { s with tick := 0, dt := s.timerTick.dt, st := s.timerTick.st } ∧
      s.timerTick.dt.toNat = s.dt.toNat - 1 ∧ s.timerTick.st.toNat = s.st.toNat - 1)) ∧
  timerDivisorOf 60 1 = 1 ∧ timerDivisorOf 600 1 = 10 ∧
  ∀ num den : Nat, 0 < den →
    (120 * den * timerDivisorOf num den ≤ 2 * num + 60 * den ∧
      2 * num + 60 * den < 120 * den * (timerDivisorOf num den + 1)) ∧
    (1 ≤ timerDivisorOf num den ↔ 30 * den ≤ num)

/-! ### Invariants -/

/-- The invariant holds right after creation, under the default parameters whatever the timer divisor, and under any well-formed
ones (10_state.md section 6; the values are those of log entries 1, 21 and 30). -/
def Obligations.ResetMeetsTheInvariant : Prop :=
  State.reset.Inv ∧ ∀ p : Params, p.wellFormed = true → (State.created p).Inv

/-- Every step from a state that meets the invariant answers a state that meets it (10_state.md R27; R229, R231). -/
def Obligations.StepKeepsTheInvariant : Prop :=
  ∀ s t : State, s.Inv → step s = .next t → t.Inv

/-- Load keeps the invariant (70_reset_and_hazards.md section 1). -/
def Obligations.LoadKeepsTheInvariant : Prop :=
  ∀ (s t : State) (rom : List Byte), s.Inv → s.loadRom rom = .next t → t.Inv

/-- No step changes the parameters or undoes a Load (00_scope.md section 4). -/
def Obligations.StepKeepsParametersAndLoad : Prop :=
  ∀ s t : State, step s = .next t → t.params = s.params ∧ t.loaded = s.loaded

/-! ### Creation and Load -/

/-- Memory at creation, whatever the parameters: the bytes of `FONT` at 0x050 to 0x09F, zero everywhere else (R261). -/
def Obligations.CreationInstallsTheFont : Prop :=
  State.reset = State.created State.reset.params ∧
  ∀ p : Params,
    (∀ i : Nat, (h : i < 80) → (State.created p).readByte (0x050#12 + BitVec.ofNat 12 i) = p.font[i]) ∧
    (∀ a : Addr, a.toNat < 0x050 ∨ 0x09F < a.toNat → (State.created p).readByte a = 0#8)

/-- The launch state: `Load(ROM)` on the created state, whatever the parameters. `pc` = 0x200, the program from 0x200, `FONT` at
0x050 to 0x09F and zeros in all the rest of memory are the document's; every register zero, an empty stack, a blank display,
stopped timers are the spec's own choice D7 (log entry 1), as the cells' values are D18 (log entry 30). -/
def Obligations.LaunchStateAfterLoad : Prop :=
  ∀ (p : Params) (rom : List Byte), rom.length ≤ 3584 →
    ∃ t, (State.created p).loadRom rom = .next t ∧ t.pc = 0x200#12 ∧ (∀ r, t.reg r = 0#8) ∧ t.index = 0x000#12 ∧
      t.stack = [] ∧ t.dt = 0#8 ∧ t.st = 0#8 ∧ t.tick = 0 ∧
      (∀ x y, x < 64 → y < 32 → pixelAt t.disp x y = false) ∧
      t.halt = .running ∧ t.frame.consumed = true ∧ (∀ k, (h : k < 16) → t.keys[k] = false) ∧ t.buzzer = false ∧
      t.ready = false ∧ t.params = p ∧
      (∀ k, (h : k < rom.length) → t.readByte (0x200#12 + BitVec.ofNat 12 k) = rom[k]) ∧
      (∀ i, (h : i < 80) → t.readByte (0x050#12 + BitVec.ofNat 12 i) = p.font[i]) ∧
      (∀ a : Addr, a.toNat < 0x050 ∨ 0x09F < a.toNat → a.toNat < 0x200 ∨ 0x200 + rom.length ≤ a.toNat →
        t.readByte a = 0#8)

/-- A Load that fits copies the program to 0x200 and up, sets `pc` to 0x200, and changes nothing else but the record that it
happened (70_reset_and_hazards.md section 1; the bound as read by D24, log entry 28). -/
def Obligations.LoadCopiesTheProgram : Prop :=
  ∀ (s : State) (rom : List Byte), s.halt = .running → s.loaded = false → rom.length ≤ 3584 →
    ∃ t, s.loadRom rom = .next t ∧ t = { s with mem := t.mem, pc := 0x200#12, loaded := true } ∧
      (∀ k, (h : k < rom.length) → t.readByte (0x200#12 + BitVec.ofNat 12 k) = rom[k]) ∧
      (∀ a : Addr, a.toNat < 0x200 ∨ 0x200 + rom.length ≤ a.toNat → t.readByte a = s.readByte a)

/-- A program of more than 3584 bytes is fatal at load time, and nothing is copied (70_reset_and_hazards.md section 1; that
nothing is copied is the spec's decision D24, log entry 28). A second Load is refused. -/
def Obligations.OversizedOrSecondLoadStops : Prop :=
  ∀ (s : State) (rom : List Byte), s.halt = .running →
    (s.loaded = false → 3584 < rom.length →
      s.loadRom rom = .next { s with halt := .halted (.romTooLarge rom.length) }) ∧
    (s.loaded = true → s.loadRom rom = .refused .alreadyLoaded)

/-! ### Flow: 00EE, 1nnn, 2nnn, Bnnn -/

/-- `00EE`: `pc` is the popped address, or 0x000 with the stack still empty; nothing else changes (R103). -/
def Obligations.RetPopsOrGoesToZero : Prop :=
  decode 0x00EE#16 = some .ret ∧
  ∀ s : State, ∃ t, exec .ret s = .next t ∧ OnlyPcStack s t ∧
    (s.stack = [] → t.pc = 0x000#12 ∧ t.stack = []) ∧
    (∀ a rest, s.stack = a :: rest → t.pc = a ∧ t.stack = rest)

/-- `1nnn`: `pc` is nnn, odd or even, anywhere; nothing else changes (R104). -/
def Obligations.JumpSetsPc : Prop :=
  ∀ (nnn : Addr) (s : State), decode (0x1#4 ++ nnn) = some (.jp nnn) ∧
    ∃ t, exec (.jp nnn) s = .next t ∧ t.pc = nnn ∧ OnlyPc s t

/-- `Bnnn`: `pc` is `(nnn + V0) mod 4096`; nothing else changes (R106). -/
def Obligations.IndexedJumpAddsV0 : Prop :=
  ∀ (nnn : Addr) (s : State), decode (0xB#4 ++ nnn) = some (.jpV0 nnn) ∧
    ∃ t, exec (.jpV0 nnn) s = .next t ∧ t.pc.toNat = (nnn.toNat + (s.reg 0x0#4).toNat) % 4096 ∧ OnlyPc s t

/-- `2nnn` on a stack with room: the advanced `pc` is pushed and `pc` is nnn; nothing else changes (40_step_and_flow.md section
3; the bound is the spec's decision D5, log entry 10). -/
def Obligations.CallPushesTheReturnAddress : Prop :=
  ∀ (nnn : Addr) (s : State), decode (0x2#4 ++ nnn) = some (.call nnn) ∧
    ((∀ d, s.params.stackDepth = some d → s.stack.length < d) →
      ∃ t, exec (.call nnn) s = .next t ∧ t.pc = nnn ∧ t.stack = s.pc :: s.stack ∧ OnlyPcStack s t)

/-- `2nnn` on a full stack: the core halts with the address that could not be pushed; nothing is pushed and `pc` is not nnn
(40_step_and_flow.md section 3; the spec's decision D5, log entry 10). -/
def Obligations.CallOnFullStackHalts : Prop :=
  ∀ (nnn : Addr) (s : State) (d : Nat), s.params.stackDepth = some d → d ≤ s.stack.length →
    ∃ t, exec (.call nnn) s = .next t ∧ t.halt = .halted (.stackOverflow s.pc) ∧ OnlyHalt s t

/-- A call and then a return bring `pc` back to the address after the call and the stack to what it was, the content below
untouched (95_test_vectors.md T3; 90_conflicts.md C7). -/
def Obligations.CallThenReturnRoundTrip : Prop :=
  ∀ (nnn : Addr) (s : State), (∀ d, s.params.stackDepth = some d → s.stack.length < d) →
    ∃ t u, exec (.call nnn) s = .next t ∧ exec .ret t.advance = .next u ∧ u.pc = s.pc ∧ u.stack = s.stack ∧
      OnlyPc s u

/-! ### Skips -/

/-- `3xkk`, `4xkk`, `5xy0`, `9xy0`: two more bytes are passed, mod 4096, exactly when the comparison holds; nothing else changes
(41_skip.md; the wrap is the spec's decision D3, log entry 13). -/
def Obligations.RegisterSkips : Prop :=
  (∀ (x : RegNum) (kk : Byte) (s : State), decode (0x3#4 ++ (x ++ kk)) = some (.seImm x kk) ∧
    ∃ t, exec (.seImm x kk) s = .next t ∧ t.pc = (if s.reg x = kk then s.pc + 2 else s.pc) ∧ OnlyPc s t) ∧
  (∀ (x : RegNum) (kk : Byte) (s : State), decode (0x4#4 ++ (x ++ kk)) = some (.sneImm x kk) ∧
    ∃ t, exec (.sneImm x kk) s = .next t ∧ t.pc = (if s.reg x = kk then s.pc else s.pc + 2) ∧ OnlyPc s t) ∧
  (∀ (x y : RegNum) (s : State), decode (0x5#4 ++ (x ++ (y ++ 0x0#4))) = some (.seReg x y) ∧
    ∃ t, exec (.seReg x y) s = .next t ∧ t.pc = (if s.reg x = s.reg y then s.pc + 2 else s.pc) ∧ OnlyPc s t) ∧
  (∀ (x y : RegNum) (s : State), decode (0x9#4 ++ (x ++ (y ++ 0x0#4))) = some (.sneReg x y) ∧
    ∃ t, exec (.sneReg x y) s = .next t ∧ t.pc = (if s.reg x = s.reg y then s.pc else s.pc + 2) ∧ OnlyPc s t)

/-- `Ex9E` and `ExA1` with Vx at most 15: two more bytes are passed, mod 4096, exactly when key Vx of the step's snapshot is
pressed, respectively is not; nothing else changes (45_key_timer.md section 1; the wrap is the spec's decision D3, log entry
13). -/
def Obligations.KeySkips : Prop :=
  ∀ (x : RegNum) (s : State), decode (0xE#4 ++ (x ++ 0x9E#8)) = some (.skp x) ∧
    decode (0xE#4 ++ (x ++ 0xA1#8)) = some (.sknp x) ∧
    ∀ h : (s.reg x).toNat < 16,
      (∃ t, exec (.skp x) s = .next t ∧ t.pc = (if s.snapshot[(s.reg x).toNat] = true then s.pc + 2 else s.pc) ∧
        OnlyPc s t) ∧
      (∃ t, exec (.sknp x) s = .next t ∧ t.pc = (if s.snapshot[(s.reg x).toNat] = true then s.pc else s.pc + 2) ∧
        OnlyPc s t)

/-- `Ex9E` and `ExA1` with Vx above 15 halt the core before any write (45_key_timer.md section 1; the spec's decision D10, log
entry 15). -/
def Obligations.KeyIndexAbove15Halts : Prop :=
  ∀ (x : RegNum) (s : State), 15 < (s.reg x).toNat →
    (∃ t, exec (.skp x) s = .next t ∧ t.halt = .halted (.keyIndexOutOfRange (s.reg x)) ∧ OnlyHalt s t) ∧
    (∃ t, exec (.sknp x) s = .next t ∧ t.halt = .halted (.keyIndexOutOfRange (s.reg x)) ∧ OnlyHalt s t)

/-! ### Register load, arithmetic, logic, shifts, random -/

/-- `6xkk` and `8xy0`: Vx takes the byte, respectively Vy; every other register, VF among them, and everything else is
unchanged (R130, R132). -/
def Obligations.LoadsWriteVx : Prop :=
  (∀ (x : RegNum) (kk : Byte) (s : State), decode (0x6#4 ++ (x ++ kk)) = some (.ldImm x kk) ∧
    ∃ t, exec (.ldImm x kk) s = .next t ∧ (∀ r, t.reg r = if r = x then kk else s.reg r) ∧ OnlyRegs s t) ∧
  (∀ (x y : RegNum) (s : State), decode (0x8#4 ++ (x ++ (y ++ 0x0#4))) = some (.ldReg x y) ∧
    ∃ t, exec (.ldReg x y) s = .next t ∧ (∀ r, t.reg r = if r = x then s.reg y else s.reg r) ∧ OnlyRegs s t)

/-- `7xkk`: Vx takes `(Vx + kk) mod 256`; VF is not written as a flag (R131). -/
def Obligations.AddImmediateWrapsWithoutFlag : Prop :=
  ∀ (x : RegNum) (kk : Byte) (s : State), decode (0x7#4 ++ (x ++ kk)) = some (.addImm x kk) ∧
    ∃ t, exec (.addImm x kk) s = .next t ∧ (t.reg x).toNat = ((s.reg x).toNat + kk.toNat) % 256 ∧
      (∀ r, r ≠ x → t.reg r = s.reg r) ∧ OnlyRegs s t

/-- `8xy1`, `8xy2`, `8xy3`: Vx takes Vx or, and, exclusive or Vy; VF is not written as a flag (R133, R134, R135). -/
def Obligations.LogicWithoutFlag : Prop :=
  ∀ (x y : RegNum) (s : State),
    (decode (0x8#4 ++ (x ++ (y ++ 0x1#4))) = some (.orReg x y) ∧
      ∃ t, exec (.orReg x y) s = .next t ∧ (∀ r, t.reg r = if r = x then s.reg x ||| s.reg y else s.reg r) ∧
        OnlyRegs s t) ∧
    (decode (0x8#4 ++ (x ++ (y ++ 0x2#4))) = some (.andReg x y) ∧
      ∃ t, exec (.andReg x y) s = .next t ∧ (∀ r, t.reg r = if r = x then s.reg x &&& s.reg y else s.reg r) ∧
        OnlyRegs s t) ∧
    (decode (0x8#4 ++ (x ++ (y ++ 0x3#4))) = some (.xorReg x y) ∧
      ∃ t, exec (.xorReg x y) s = .next t ∧ (∀ r, t.reg r = if r = x then s.reg x ^^^ s.reg y else s.reg r) ∧
        OnlyRegs s t)

/-- `8xy4`: VF ends as the carry of the old operands, 1 or 0; Vx, unless it is VF, as the sum mod 256; every other register as
before (42_alu.md section 3; the order of the two writes when x = F is the spec's decision D11, log entry 14). -/
def Obligations.AddGivesSumThenCarry : Prop :=
  ∀ (x y : RegNum) (s : State), decode (0x8#4 ++ (x ++ (y ++ 0x4#4))) = some (.addReg x y) ∧
    ∃ t, exec (.addReg x y) s = .next t ∧
      t.reg vF = (if 255 < (s.reg x).toNat + (s.reg y).toNat then 1#8 else 0#8) ∧
      (x ≠ vF → (t.reg x).toNat = ((s.reg x).toNat + (s.reg y).toNat) % 256) ∧
      (∀ r, r ≠ x → r ≠ vF → t.reg r = s.reg r) ∧ OnlyRegs s t

/-- `8xy5` and `8xy7`: VF ends as 1 exactly when the subtraction of the old operands underflowed; Vx, unless it is VF, as the
difference mod 256; every other register as before (42_alu.md section 3; D11, log entry 14). -/
def Obligations.SubtractionsGiveBorrow : Prop :=
  ∀ (x y : RegNum) (s : State),
    (decode (0x8#4 ++ (x ++ (y ++ 0x5#4))) = some (.sub x y) ∧
      ∃ t, exec (.sub x y) s = .next t ∧
        t.reg vF = (if (s.reg x).toNat < (s.reg y).toNat then 1#8 else 0#8) ∧
        (x ≠ vF → (t.reg x).toNat = ((s.reg x).toNat + 256 - (s.reg y).toNat) % 256) ∧
        (∀ r, r ≠ x → r ≠ vF → t.reg r = s.reg r) ∧ OnlyRegs s t) ∧
    (decode (0x8#4 ++ (x ++ (y ++ 0x7#4))) = some (.subn x y) ∧
      ∃ t, exec (.subn x y) s = .next t ∧
        t.reg vF = (if (s.reg y).toNat < (s.reg x).toNat then 1#8 else 0#8) ∧
        (x ≠ vF → (t.reg x).toNat = ((s.reg y).toNat + 256 - (s.reg x).toNat) % 256) ∧
        (∀ r, r ≠ x → r ≠ vF → t.reg r = s.reg r) ∧ OnlyRegs s t)

/-- `8xy6` and `8xyE`, whatever y: Vx is halved, respectively doubled mod 256, and VF is the bit that left, as 0 or 1,
respectively as 0x00 or 0x80; when Vx is VF itself it ends as 0; every other register as before (42_alu.md section 3; the order
when x = F is the spec's decision D11, log entry 14). -/
def Obligations.ShiftsIgnoreVy : Prop :=
  ∀ (x y : RegNum) (s : State),
    (decode (0x8#4 ++ (x ++ (y ++ 0x6#4))) = some (.shr x y) ∧
      ∃ t, exec (.shr x y) s = .next t ∧
        (x ≠ vF → (t.reg x).toNat = (s.reg x).toNat / 2 ∧ (t.reg vF).toNat = (s.reg x).toNat % 2) ∧
        (x = vF → t.reg vF = 0#8) ∧
        (∀ r, r ≠ x → r ≠ vF → t.reg r = s.reg r) ∧ OnlyRegs s t) ∧
    (decode (0x8#4 ++ (x ++ (y ++ 0xE#4))) = some (.shl x y) ∧
      ∃ t, exec (.shl x y) s = .next t ∧
        (x ≠ vF → (t.reg x).toNat = 2 * (s.reg x).toNat % 256 ∧
          t.reg vF = if 128 ≤ (s.reg x).toNat then 0x80#8 else 0x00#8) ∧
        (x = vF → t.reg vF = 0#8) ∧
        (∀ r, r ≠ x → r ≠ vF → t.reg r = s.reg r) ∧ OnlyRegs s t)

/-- `Cxkk`: Vx takes the random byte of the step, whatever it is, and kk; so no bit outside kk is set (R141). -/
def Obligations.RandomIsMasked : Prop :=
  ∀ (x : RegNum) (kk : Byte) (s : State), decode (0xC#4 ++ (x ++ kk)) = some (.rnd x kk) ∧
    ∃ t, exec (.rnd x kk) s = .next t ∧ (∀ r, t.reg r = if r = x then s.rand &&& kk else s.reg r) ∧
      t.reg x &&& ~~~kk = 0#8 ∧ OnlyRegs s t

/-! ### Index register and memory -/

/-- `Annn` and `Fx1E`: I takes nnn, respectively `(I + Vx) mod 4096`; no flag, nothing else changes (R150, R151). -/
def Obligations.IndexLoadAndAdd : Prop :=
  (∀ (nnn : Addr) (s : State), decode (0xA#4 ++ nnn) = some (.ldI nnn) ∧
    ∃ t, exec (.ldI nnn) s = .next t ∧ t.index = nnn ∧ OnlyIndex s t) ∧
  (∀ (x : RegNum) (s : State), decode (0xF#4 ++ (x ++ 0x1E#8)) = some (.addI x) ∧
    ∃ t, exec (.addI x) s = .next t ∧ t.index.toNat = (s.index.toNat + (s.reg x).toNat) % 4096 ∧ OnlyIndex s t)

/-- `Fx29`: I takes `0x050 + 5 * Vx`, with no mask and no wrap; nothing else changes (43_index_memory.md section 1; the spec's
decision D13, log entry 17). -/
def Obligations.FontAddress : Prop :=
  ∀ (x : RegNum) (s : State), decode (0xF#4 ++ (x ++ 0x29#8)) = some (.ldF x) ∧
    ∃ t, exec (.ldF x) s = .next t ∧ t.index.toNat = 0x050 + 5 * (s.reg x).toNat ∧ OnlyIndex s t

/-- `Fx33`: the hundreds, tens and ones digits of Vx at `I`, `I + 1`, `I + 2` mod 4096; every other byte and everything else
unchanged (43_index_memory.md section 2; wrap D2, I unchanged D12, log entries 12 and 16). -/
def Obligations.BcdStoresThreeDigits : Prop :=
  ∀ (x : RegNum) (s : State), decode (0xF#4 ++ (x ++ 0x33#8)) = some (.bcd x) ∧
    ∃ t, exec (.bcd x) s = .next t ∧
      (t.readByte s.index).toNat = (s.reg x).toNat / 100 ∧
      (t.readByte (s.index + 1)).toNat = (s.reg x).toNat / 10 % 10 ∧
      (t.readByte (s.index + 2)).toNat = (s.reg x).toNat % 10 ∧
      (∀ a : Addr, a ≠ s.index → a ≠ s.index + 1 → a ≠ s.index + 2 → t.readByte a = s.readByte a) ∧ OnlyMem s t

/-- `Fx55`: registers V0 to Vx at `I`, `I + 1`, …, mod 4096; every other byte and everything else unchanged
(43_index_memory.md section 2; D2 and D12, log entries 12 and 16). -/
def Obligations.StoreWritesRegisterBlock : Prop :=
  ∀ (x : RegNum) (s : State), decode (0xF#4 ++ (x ++ 0x55#8)) = some (.store x) ∧
    ∃ t, exec (.store x) s = .next t ∧
      (∀ r : RegNum, r.toNat ≤ x.toNat → t.readByte (s.index + BitVec.ofNat 12 r.toNat) = s.reg r) ∧
      (∀ a : Addr, (∀ k, k ≤ x.toNat → a ≠ s.index + BitVec.ofNat 12 k) → t.readByte a = s.readByte a) ∧ OnlyMem s t

/-- `Fx65`: registers V0 to Vx from `I`, `I + 1`, …, mod 4096; the registers above Vx and everything else unchanged
(43_index_memory.md section 2; D2 and D12, log entries 12 and 16). -/
def Obligations.LoadReadsRegisterBlock : Prop :=
  ∀ (x : RegNum) (s : State), decode (0xF#4 ++ (x ++ 0x65#8)) = some (.load x) ∧
    ∃ t, exec (.load x) s = .next t ∧
      (∀ r : RegNum, t.reg r =
        if r.toNat ≤ x.toNat then s.readByte (s.index + BitVec.ofNat 12 r.toNat) else s.reg r) ∧ OnlyRegs s t

/-- A store and then a load of the same block, `I` and memory between untouched, leave every register and `I` as they were, even
if the registers were overwritten in between (95_test_vectors.md 2.6). That neither changes `I` is the spec's decision D12 (log
entry 16), and that a block past 0xFFF goes on at 0x000 its decision D2 (log entry 12). -/
def Obligations.StoreThenLoadRoundTrip : Prop :=
  ∀ (x : RegNum) (s : State) (w : Vector Byte 16), (∀ r : RegNum, x.toNat < r.toNat → w[r.toNat] = s.reg r) →
    ∃ t u, exec (.store x) s = .next t ∧ exec (.load x) { t with v := w } = .next u ∧
      (∀ r, u.reg r = s.reg r) ∧ u.index = s.index

/-- A store is seen by the next fetch, whichever of the two fetched bytes it reaches: after `Fx55` and after `Fx33`, the opcode at
`pc` is made of the stored bytes where the store reaches and of the bytes of before elsewhere (20_memory.md section 9). A fetch
or a store past 0xFFF goes on at 0x000 by the spec's decision D2 (log entry 12). -/
def Obligations.StoresAreSeenByTheNextFetch : Prop :=
  ∀ (x : RegNum) (s : State),
    (∃ t, exec (.store x) s = .next t ∧
      t.fetchWord = (s.byteAfterStore x s.pc ++ s.byteAfterStore x (s.pc + 1) : Word)) ∧
    (∃ t, exec (.bcd x) s = .next t ∧
      t.fetchWord = (s.byteAfterBcd x s.pc ++ s.byteAfterBcd x (s.pc + 1) : Word))

/-! ### Display -/

/-- `00E0`: every pixel off, the whole display returned as an update even if it was blank, VF and everything else unchanged
(R171). -/
def Obligations.ClearBlanksAndUpdates : Prop :=
  decode 0x00E0#16 = some .cls ∧
  ∀ s : State, ∃ t, exec .cls s = .next t ∧ (∀ x y, x < 64 → y < 32 → pixelAt t.disp x y = false) ∧
    t.update = some t.disp ∧ t = { s with disp := t.disp, update := t.update } ∧ SameMemory s t

/-- `Dxyn`: each visible pixel is XORed with the sprite pixel that falls on it, the sprite starting at `(Vx mod 64, Vy mod 32)`
with rows read at `I + r` mod 4096 and clipped at the right and bottom edges; VF is 1 if a lit pixel took a 1 bit, else 0; an
update is returned; every other register, `I`, memory and everything else are unchanged (44_display.md section 3; coordinates
read before VF is cleared D11, address wrap D2, `I` unchanged D12: log entries 14, 12 and 16). -/
def Obligations.DrawXorsClipsAndCollides : Prop :=
  ∀ (x y : RegNum) (n : Nibble) (s : State), decode (0xD#4 ++ (x ++ (y ++ n))) = some (.drw x y n) ∧
    ∃ t, exec (.drw x y n) s = .next t ∧
      (∀ px py, px < 64 → py < 32 → pixelAt t.disp px py = (pixelAt s.disp px py ^^ s.spriteOn x y n px py)) ∧
      (s.Collides x y n → t.reg vF = 1#8) ∧ (¬ s.Collides x y n → t.reg vF = 0#8) ∧
      (∀ r, r ≠ vF → t.reg r = s.reg r) ∧ t.update = some t.disp ∧
      t = { s with v := t.v, disp := t.disp, update := t.update } ∧ SameMemory s t

/-- Drawing the same sprite twice at the same place restores the display, and the second draw gives VF = 1 exactly when a
visible 1 bit of the sprite fell on a pixel that was off at first, so whenever it has a visible 1 bit and the display was blank
there (44_display.md section 3, corner case f as read in log entry 32, and 95_test_vectors.md T4; coordinates not in VF, which
the first draw writes; that the first draw leaves `I` is the spec's decision D12, log entry 16). -/
def Obligations.DrawTwiceRestoresTheDisplay : Prop :=
  ∀ (x y : RegNum) (n : Nibble) (s : State), x ≠ vF → y ≠ vF →
    ∃ t u, exec (.drw x y n) s = .next t ∧ exec (.drw x y n) t.advance = .next u ∧ u.disp = s.disp ∧
      (u.reg vF = 1#8 ↔ ∃ px py, px < 64 ∧ py < 32 ∧ s.spriteOn x y n px py = true ∧ pixelAt s.disp px py = false)

/-- A step returns an update exactly when the instruction it executed is `00E0` or `Dxyn`, drawn or not; the update is the whole
display as it then stands (R170). -/
def Obligations.UpdateExactlyFromDisplayInstructions : Prop :=
  ∀ s : State, s.Enabled → ∃ t, step s = .next t ∧
    (s.RunsDisplayInstruction → t.update = some t.disp) ∧ (¬ s.RunsDisplayInstruction → t.update = none)

/-! ### Keys and timers -/

/-- `Fx0A`: with no key of the step's snapshot pressed `pc` goes back by 2 mod 4096 and nothing else changes; otherwise Vx takes
the number of the lowest pressed key and nothing else changes (45_key_timer.md section 1; the wrap of the rewind is D3, log
entry 13). -/
def Obligations.KeyWaitPollsOrTakesLowest : Prop :=
  ∀ (x : RegNum) (s : State), decode (0xF#4 ++ (x ++ 0x0A#8)) = some (.ldKey x) ∧
    ((∀ i, (h : i < 16) → s.snapshot[i] = false) →
      ∃ t, exec (.ldKey x) s = .next t ∧ t.pc = s.pc - 2 ∧ OnlyPc s t) ∧
    (∀ k, (h : k < 16) → s.snapshot[k] = true → (∀ j, (hj : j < k) → s.snapshot[j] = false) →
      ∃ t, exec (.ldKey x) s = .next t ∧ (∀ r, t.reg r = if r = x then BitVec.ofNat 8 k else s.reg r) ∧ OnlyRegs s t)

/-- `Fx07`: Vx takes DT as it stands before the tick of the same step, which comes after and does not touch Vx (R193). -/
def Obligations.DelayTimerRead : Prop :=
  ∀ (x : RegNum) (s : State), decode (0xF#4 ++ (x ++ 0x07#8)) = some (.ldVxDT x) ∧
    ∃ t, exec (.ldVxDT x) s = .next t ∧ (∀ r, t.reg r = if r = x then s.dt else s.reg r) ∧ OnlyRegs s t ∧
      (s.halt = .running → t.endStep.reg x = s.dt ∧ t.endStep.dt = s.timerTick.dt)

/-- `Fx15` and `Fx18`: DT, respectively ST, takes Vx (R194, R195); the tick of the same step comes after, so when it is due the
timer ends the step at Vx - 1, or 0, and `BUZZER` shows ST after it (R231). That the tick is due when `TICK + 1` equals the
divisor is the spec's decision D14 (log entry 18). -/
def Obligations.TimerWritesThenTick : Prop :=
  ∀ (x : RegNum) (s : State),
    (decode (0xF#4 ++ (x ++ 0x15#8)) = some (.ldDT x) ∧
      ∃ t, exec (.ldDT x) s = .next t ∧ t = { s with dt := s.reg x } ∧ SameMemory s t ∧
        (s.halt = .running → t.endStep.dt.toNat =
          if s.tick + 1 = s.params.timerDivisor then (s.reg x).toNat - 1 else (s.reg x).toNat)) ∧
    (decode (0xF#4 ++ (x ++ 0x18#8)) = some (.ldST x) ∧
      ∃ t, exec (.ldST x) s = .next t ∧ t = { s with st := s.reg x } ∧ SameMemory s t ∧
        (s.halt = .running → (t.endStep.st.toNat =
          if s.tick + 1 = s.params.timerDivisor then (s.reg x).toNat - 1 else (s.reg x).toNat) ∧
          t.endStep.buzzer = (t.endStep.st != 0#8)))

/-! ### Whole-machine rules -/

/-- No instruction writes a general register it does not name as its destination, and VF as a flag only in the six instructions
of R11 (10_state.md section 1, the table of R12). -/
def Obligations.RegistersWrittenOnlyWhereNamed : Prop :=
  ∀ (i : Instr) (s t : State) (r : RegNum), exec i s = .next t → i.writesReg r = false →
    (r = vF → i.setsFlag = false) → t.reg r = s.reg r

/-- Which instruction reaches which state: `pc` is moved past the advance by the flow, the skips and `Fx0A` alone (R14); `I` is
written by three instructions, memory by `Fx33` and `Fx55` alone, the display by `00E0` and `Dxyn` alone, the stack by `00EE`
and `2nnn` alone, DT by `Fx15`, ST by `Fx18`; the halt latch is set by `2nnn`, `Ex9E` and `ExA1` alone (R210) and an update
returned by `00E0` and `Dxyn` alone (R170); TICK, the cells, the step's inputs and the parameters by none (10_state.md section 3;
20_memory.md section 1). That `Dxyn`, `Fx33`, `Fx55` and `Fx65` leave `I` is the spec's decision D12 (log entry 16). The general
registers are the statement RegistersWrittenOnlyWhereNamed. -/
def Obligations.StateWrittenOnlyByItsInstructions : Prop :=
  ∀ (i : Instr) (s t : State), exec i s = .next t →
    (i.movesPc = false → t.pc = s.pc) ∧
    ((∀ n, i ≠ .ldI n) → (∀ x, i ≠ .addI x) → (∀ x, i ≠ .ldF x) → t.index = s.index) ∧
    ((∀ x, i ≠ .bcd x) → (∀ x, i ≠ .store x) → SameMemory s t) ∧
    (i ≠ .cls → (∀ x y n, i ≠ .drw x y n) → t.disp = s.disp ∧ t.update = s.update) ∧
    (i ≠ .ret → (∀ n, i ≠ .call n) → t.stack = s.stack) ∧
    ((∀ x, i ≠ .ldDT x) → t.dt = s.dt) ∧ ((∀ x, i ≠ .ldST x) → t.st = s.st) ∧
    ((∀ n, i ≠ .call n) → (∀ x, i ≠ .skp x) → (∀ x, i ≠ .sknp x) → t.halt = s.halt) ∧
    t.tick = s.tick ∧ t.frame = s.frame ∧ t.keys = s.keys ∧ t.buzzer = s.buzzer ∧ t.ready = s.ready ∧
    t.rand = s.rand ∧ t.snapshot = s.snapshot ∧ t.params = s.params ∧ t.loaded = s.loaded ∧
    t.hostQueue = s.hostQueue ∧ t.hostClock = s.hostClock

/-- The sound timer and the tick counter cannot be read by any instruction: changing them changes nothing in what an instruction
does to the rest (10_state.md section 3; 60_exceptions.md section 2). -/
def Obligations.SoundTimerAndTickAreUnreadable : Prop :=
  ∀ (i : Instr) (s : State) (b : Byte) (k : Nat),
    exec i { s with tick := k } = mapNext (fun t => { t with tick := k }) (exec i s) ∧
    ((∀ x, i ≠ .ldST x) → exec i { s with st := b } = mapNext (fun t => { t with st := b }) (exec i s)) ∧
    (∀ x, i = .ldST x → exec i { s with st := b } = exec i s)

/-- The key snapshot of the step is read by `Ex9E`, `ExA1` and `Fx0A` alone, the random byte by `Cxkk` alone, and the cells by no
instruction: nothing else can learn anything of them (10_state.md section 3; 42_alu.md section 4; 60_exceptions.md section
4). -/
def Obligations.InputsReadOnlyByTheirInstructions : Prop :=
  ∀ (i : Instr) (s : State),
    (∀ k : Keys, (∀ x, i ≠ .skp x) → (∀ x, i ≠ .sknp x) → (∀ x, i ≠ .ldKey x) →
      exec i { s with snapshot := k } = mapNext (fun t => { t with snapshot := k }) (exec i s)) ∧
    (∀ b : Byte, (∀ x kk, i ≠ .rnd x kk) →
      exec i { s with rand := b } = mapNext (fun t => { t with rand := b }) (exec i s)) ∧
    (∀ (k : Keys) (f : Frame) (b r : Bool),
      exec i { s with keys := k, frame := f, buzzer := b, ready := r } =
        mapNext (fun t => { t with keys := k, frame := f, buzzer := b, ready := r }) (exec i s))

/-- A turn of the host, whatever the host does, touches nothing of the Machine State: it may replace the contents of `KEYS`, mark
the frame consumed, set `READY` and change the random byte, and no more (60_exceptions.md section 4). So nothing of a snapshot
already read changes. Where moves are already decided, the next of them are the turn's (the model's form of the host, log entry
5). -/
def Obligations.HostTouchesOnlyTheCells : Prop :=
  ∀ s : State,
    (∃ m : HostMoves,
      s.hostTurn = { s with keys := m.publishes.getD s.keys, ready := s.ready || m.signalsReady, rand := m.randomByte,
                            frame := ⟨s.frame.data, s.frame.consumed || m.drains⟩,
                            hostQueue := s.hostQueue.tail, hostClock := s.hostTurn.hostClock }) ∧
    (∀ m ms, s.hostQueue = m :: ms →
      s.hostTurn = { s with keys := m.publishes.getD s.keys, ready := s.ready || m.signalsReady, rand := m.randomByte,
                            frame := ⟨s.frame.data, s.frame.consumed || m.drains⟩, hostQueue := ms })

/-- The frame cell: a published frame overwrites an undrained one and is unconsumed; a drain takes the latest frame whole and
marks it consumed; a drain of a consumed frame gives nothing (R229). -/
def Obligations.FrameCellKeepsTheLatest : Prop :=
  ∀ (s : State) (f : Display), s.update = some f →
    s.publishUpdate.frame = ⟨f, false⟩ ∧ s.publishUpdate.frameToDrain = some f ∧
    (s.publishUpdate.drainFrame true).frame = ⟨f, true⟩ ∧
    (s.publishUpdate.drainFrame true).frameToDrain = none

/-! ### Parked (the end-of-run idiom) -/

/-- A parked core stays parked: each step leaves `pc`, the registers, `I`, the stack, memory and the display unchanged, returns no
update, and runs the timer tick (70_reset_and_hazards.md section 2; the parked state is the spec's decision D21). -/
def Obligations.ParkedCoreStaysParked : Prop :=
  ∀ (s : State) (p : Addr), s.Enabled → s.ParkedAt p →
    ∃ t, step s = .next t ∧ t.Enabled ∧ t.ParkedAt p ∧ t.v = s.v ∧ t.index = s.index ∧ t.stack = s.stack ∧
      SameMemory s t ∧ t.disp = s.disp ∧ t.update = none ∧ t.frame.data = s.frame.data ∧
      (s.frame.consumed = true → t.frame.consumed = true) ∧
      t.tick = s.timerTick.tick ∧ t.dt = s.timerTick.dt ∧ t.st = s.timerTick.st

/-- On a parked core with `TICK` = 0, `k` times `TIMER_DIVISOR` steps take exactly `k` from each timer, saturating at 0, and leave
`TICK` at 0: the timers count steps (60_exceptions.md section 2; 95_test_vectors.md T6). The parked state is the spec's decision
D21, and the equality test of the tick its decision D14 (log entry 18). -/
def Obligations.ParkedTimersDecayOncePerDivisor : Prop :=
  ∀ (s : State) (p : Addr) (k : Nat), s.Enabled → s.ParkedAt p → s.tick = 0 →
    ∃ t, core.run (k * s.params.timerDivisor) s = .next t ∧ t.ParkedAt p ∧ t.tick = 0 ∧
      t.dt.toNat = s.dt.toNat - k ∧ t.st.toNat = s.st.toNat - k
end

