-- ==== Sys2Proof/Laws/State.lean ====
section
/-! SUPPORT. One lemma per field per named update of the state, each true by rfl: what the update writes and what it
leaves. No later proof unfolds a record update. -/

namespace Sys2Proof.Machine

variable (s : State)

/-! ### setReg -/

@[simp] theorem setReg_v (r : RegNum) (b : Byte) : (s.setReg r b).v = s.v.set r.toNat b r.isLt := rfl
@[simp] theorem setReg_pc (r : RegNum) (b : Byte) : (s.setReg r b).pc = s.pc := rfl
@[simp] theorem setReg_index (r : RegNum) (b : Byte) : (s.setReg r b).index = s.index := rfl
@[simp] theorem setReg_stack (r : RegNum) (b : Byte) : (s.setReg r b).stack = s.stack := rfl
@[simp] theorem setReg_dt (r : RegNum) (b : Byte) : (s.setReg r b).dt = s.dt := rfl
@[simp] theorem setReg_st (r : RegNum) (b : Byte) : (s.setReg r b).st = s.st := rfl
@[simp] theorem setReg_tick (r : RegNum) (b : Byte) : (s.setReg r b).tick = s.tick := rfl
@[simp] theorem setReg_disp (r : RegNum) (b : Byte) : (s.setReg r b).disp = s.disp := rfl
@[simp] theorem setReg_halt (r : RegNum) (b : Byte) : (s.setReg r b).halt = s.halt := rfl
@[simp] theorem setReg_mem (r : RegNum) (b : Byte) : (s.setReg r b).mem = s.mem := rfl
@[simp] theorem setReg_frame (r : RegNum) (b : Byte) : (s.setReg r b).frame = s.frame := rfl
@[simp] theorem setReg_keys (r : RegNum) (b : Byte) : (s.setReg r b).keys = s.keys := rfl
@[simp] theorem setReg_buzzer (r : RegNum) (b : Byte) : (s.setReg r b).buzzer = s.buzzer := rfl
@[simp] theorem setReg_ready (r : RegNum) (b : Byte) : (s.setReg r b).ready = s.ready := rfl
@[simp] theorem setReg_update (r : RegNum) (b : Byte) : (s.setReg r b).update = s.update := rfl
@[simp] theorem setReg_rand (r : RegNum) (b : Byte) : (s.setReg r b).rand = s.rand := rfl
@[simp] theorem setReg_snapshot (r : RegNum) (b : Byte) : (s.setReg r b).snapshot = s.snapshot := rfl
@[simp] theorem setReg_loaded (r : RegNum) (b : Byte) : (s.setReg r b).loaded = s.loaded := rfl
@[simp] theorem setReg_params (r : RegNum) (b : Byte) : (s.setReg r b).params = s.params := rfl
@[simp] theorem setReg_hostQueue (r : RegNum) (b : Byte) : (s.setReg r b).hostQueue = s.hostQueue := rfl
@[simp] theorem setReg_hostClock (r : RegNum) (b : Byte) : (s.setReg r b).hostClock = s.hostClock := rfl

/-! ### setFlag -/

@[simp] theorem setFlag_v (b : Byte) : (s.setFlag b).v = s.v.set 15 b := rfl
@[simp] theorem setFlag_pc (b : Byte) : (s.setFlag b).pc = s.pc := rfl
@[simp] theorem setFlag_index (b : Byte) : (s.setFlag b).index = s.index := rfl
@[simp] theorem setFlag_stack (b : Byte) : (s.setFlag b).stack = s.stack := rfl
@[simp] theorem setFlag_dt (b : Byte) : (s.setFlag b).dt = s.dt := rfl
@[simp] theorem setFlag_st (b : Byte) : (s.setFlag b).st = s.st := rfl
@[simp] theorem setFlag_tick (b : Byte) : (s.setFlag b).tick = s.tick := rfl
@[simp] theorem setFlag_disp (b : Byte) : (s.setFlag b).disp = s.disp := rfl
@[simp] theorem setFlag_halt (b : Byte) : (s.setFlag b).halt = s.halt := rfl
@[simp] theorem setFlag_mem (b : Byte) : (s.setFlag b).mem = s.mem := rfl
@[simp] theorem setFlag_frame (b : Byte) : (s.setFlag b).frame = s.frame := rfl
@[simp] theorem setFlag_keys (b : Byte) : (s.setFlag b).keys = s.keys := rfl
@[simp] theorem setFlag_buzzer (b : Byte) : (s.setFlag b).buzzer = s.buzzer := rfl
@[simp] theorem setFlag_ready (b : Byte) : (s.setFlag b).ready = s.ready := rfl
@[simp] theorem setFlag_update (b : Byte) : (s.setFlag b).update = s.update := rfl
@[simp] theorem setFlag_rand (b : Byte) : (s.setFlag b).rand = s.rand := rfl
@[simp] theorem setFlag_snapshot (b : Byte) : (s.setFlag b).snapshot = s.snapshot := rfl
@[simp] theorem setFlag_loaded (b : Byte) : (s.setFlag b).loaded = s.loaded := rfl
@[simp] theorem setFlag_params (b : Byte) : (s.setFlag b).params = s.params := rfl
@[simp] theorem setFlag_hostQueue (b : Byte) : (s.setFlag b).hostQueue = s.hostQueue := rfl
@[simp] theorem setFlag_hostClock (b : Byte) : (s.setFlag b).hostClock = s.hostClock := rfl

/-! ### setPc -/

@[simp] theorem setPc_v (t : Addr) : (s.setPc t).v = s.v := rfl
@[simp] theorem setPc_pc (t : Addr) : (s.setPc t).pc = t := rfl
@[simp] theorem setPc_index (t : Addr) : (s.setPc t).index = s.index := rfl
@[simp] theorem setPc_stack (t : Addr) : (s.setPc t).stack = s.stack := rfl
@[simp] theorem setPc_dt (t : Addr) : (s.setPc t).dt = s.dt := rfl
@[simp] theorem setPc_st (t : Addr) : (s.setPc t).st = s.st := rfl
@[simp] theorem setPc_tick (t : Addr) : (s.setPc t).tick = s.tick := rfl
@[simp] theorem setPc_disp (t : Addr) : (s.setPc t).disp = s.disp := rfl
@[simp] theorem setPc_halt (t : Addr) : (s.setPc t).halt = s.halt := rfl
@[simp] theorem setPc_mem (t : Addr) : (s.setPc t).mem = s.mem := rfl
@[simp] theorem setPc_frame (t : Addr) : (s.setPc t).frame = s.frame := rfl
@[simp] theorem setPc_keys (t : Addr) : (s.setPc t).keys = s.keys := rfl
@[simp] theorem setPc_buzzer (t : Addr) : (s.setPc t).buzzer = s.buzzer := rfl
@[simp] theorem setPc_ready (t : Addr) : (s.setPc t).ready = s.ready := rfl
@[simp] theorem setPc_update (t : Addr) : (s.setPc t).update = s.update := rfl
@[simp] theorem setPc_rand (t : Addr) : (s.setPc t).rand = s.rand := rfl
@[simp] theorem setPc_snapshot (t : Addr) : (s.setPc t).snapshot = s.snapshot := rfl
@[simp] theorem setPc_loaded (t : Addr) : (s.setPc t).loaded = s.loaded := rfl
@[simp] theorem setPc_params (t : Addr) : (s.setPc t).params = s.params := rfl
@[simp] theorem setPc_hostQueue (t : Addr) : (s.setPc t).hostQueue = s.hostQueue := rfl
@[simp] theorem setPc_hostClock (t : Addr) : (s.setPc t).hostClock = s.hostClock := rfl

/-! ### setIndex -/

@[simp] theorem setIndex_v (t : Addr) : (s.setIndex t).v = s.v := rfl
@[simp] theorem setIndex_pc (t : Addr) : (s.setIndex t).pc = s.pc := rfl
@[simp] theorem setIndex_index (t : Addr) : (s.setIndex t).index = t := rfl
@[simp] theorem setIndex_stack (t : Addr) : (s.setIndex t).stack = s.stack := rfl
@[simp] theorem setIndex_dt (t : Addr) : (s.setIndex t).dt = s.dt := rfl
@[simp] theorem setIndex_st (t : Addr) : (s.setIndex t).st = s.st := rfl
@[simp] theorem setIndex_tick (t : Addr) : (s.setIndex t).tick = s.tick := rfl
@[simp] theorem setIndex_disp (t : Addr) : (s.setIndex t).disp = s.disp := rfl
@[simp] theorem setIndex_halt (t : Addr) : (s.setIndex t).halt = s.halt := rfl
@[simp] theorem setIndex_mem (t : Addr) : (s.setIndex t).mem = s.mem := rfl
@[simp] theorem setIndex_frame (t : Addr) : (s.setIndex t).frame = s.frame := rfl
@[simp] theorem setIndex_keys (t : Addr) : (s.setIndex t).keys = s.keys := rfl
@[simp] theorem setIndex_buzzer (t : Addr) : (s.setIndex t).buzzer = s.buzzer := rfl
@[simp] theorem setIndex_ready (t : Addr) : (s.setIndex t).ready = s.ready := rfl
@[simp] theorem setIndex_update (t : Addr) : (s.setIndex t).update = s.update := rfl
@[simp] theorem setIndex_rand (t : Addr) : (s.setIndex t).rand = s.rand := rfl
@[simp] theorem setIndex_snapshot (t : Addr) : (s.setIndex t).snapshot = s.snapshot := rfl
@[simp] theorem setIndex_loaded (t : Addr) : (s.setIndex t).loaded = s.loaded := rfl
@[simp] theorem setIndex_params (t : Addr) : (s.setIndex t).params = s.params := rfl
@[simp] theorem setIndex_hostQueue (t : Addr) : (s.setIndex t).hostQueue = s.hostQueue := rfl
@[simp] theorem setIndex_hostClock (t : Addr) : (s.setIndex t).hostClock = s.hostClock := rfl

/-! ### setDt -/

@[simp] theorem setDt_v (b : Byte) : (s.setDt b).v = s.v := rfl
@[simp] theorem setDt_pc (b : Byte) : (s.setDt b).pc = s.pc := rfl
@[simp] theorem setDt_index (b : Byte) : (s.setDt b).index = s.index := rfl
@[simp] theorem setDt_stack (b : Byte) : (s.setDt b).stack = s.stack := rfl
@[simp] theorem setDt_dt (b : Byte) : (s.setDt b).dt = b := rfl
@[simp] theorem setDt_st (b : Byte) : (s.setDt b).st = s.st := rfl
@[simp] theorem setDt_tick (b : Byte) : (s.setDt b).tick = s.tick := rfl
@[simp] theorem setDt_disp (b : Byte) : (s.setDt b).disp = s.disp := rfl
@[simp] theorem setDt_halt (b : Byte) : (s.setDt b).halt = s.halt := rfl
@[simp] theorem setDt_mem (b : Byte) : (s.setDt b).mem = s.mem := rfl
@[simp] theorem setDt_frame (b : Byte) : (s.setDt b).frame = s.frame := rfl
@[simp] theorem setDt_keys (b : Byte) : (s.setDt b).keys = s.keys := rfl
@[simp] theorem setDt_buzzer (b : Byte) : (s.setDt b).buzzer = s.buzzer := rfl
@[simp] theorem setDt_ready (b : Byte) : (s.setDt b).ready = s.ready := rfl
@[simp] theorem setDt_update (b : Byte) : (s.setDt b).update = s.update := rfl
@[simp] theorem setDt_rand (b : Byte) : (s.setDt b).rand = s.rand := rfl
@[simp] theorem setDt_snapshot (b : Byte) : (s.setDt b).snapshot = s.snapshot := rfl
@[simp] theorem setDt_loaded (b : Byte) : (s.setDt b).loaded = s.loaded := rfl
@[simp] theorem setDt_params (b : Byte) : (s.setDt b).params = s.params := rfl
@[simp] theorem setDt_hostQueue (b : Byte) : (s.setDt b).hostQueue = s.hostQueue := rfl
@[simp] theorem setDt_hostClock (b : Byte) : (s.setDt b).hostClock = s.hostClock := rfl

/-! ### setSt -/

@[simp] theorem setSt_v (b : Byte) : (s.setSt b).v = s.v := rfl
@[simp] theorem setSt_pc (b : Byte) : (s.setSt b).pc = s.pc := rfl
@[simp] theorem setSt_index (b : Byte) : (s.setSt b).index = s.index := rfl
@[simp] theorem setSt_stack (b : Byte) : (s.setSt b).stack = s.stack := rfl
@[simp] theorem setSt_dt (b : Byte) : (s.setSt b).dt = s.dt := rfl
@[simp] theorem setSt_st (b : Byte) : (s.setSt b).st = b := rfl
@[simp] theorem setSt_tick (b : Byte) : (s.setSt b).tick = s.tick := rfl
@[simp] theorem setSt_disp (b : Byte) : (s.setSt b).disp = s.disp := rfl
@[simp] theorem setSt_halt (b : Byte) : (s.setSt b).halt = s.halt := rfl
@[simp] theorem setSt_mem (b : Byte) : (s.setSt b).mem = s.mem := rfl
@[simp] theorem setSt_frame (b : Byte) : (s.setSt b).frame = s.frame := rfl
@[simp] theorem setSt_keys (b : Byte) : (s.setSt b).keys = s.keys := rfl
@[simp] theorem setSt_buzzer (b : Byte) : (s.setSt b).buzzer = s.buzzer := rfl
@[simp] theorem setSt_ready (b : Byte) : (s.setSt b).ready = s.ready := rfl
@[simp] theorem setSt_update (b : Byte) : (s.setSt b).update = s.update := rfl
@[simp] theorem setSt_rand (b : Byte) : (s.setSt b).rand = s.rand := rfl
@[simp] theorem setSt_snapshot (b : Byte) : (s.setSt b).snapshot = s.snapshot := rfl
@[simp] theorem setSt_loaded (b : Byte) : (s.setSt b).loaded = s.loaded := rfl
@[simp] theorem setSt_params (b : Byte) : (s.setSt b).params = s.params := rfl
@[simp] theorem setSt_hostQueue (b : Byte) : (s.setSt b).hostQueue = s.hostQueue := rfl
@[simp] theorem setSt_hostClock (b : Byte) : (s.setSt b).hostClock = s.hostClock := rfl

/-! ### writeByte -/

@[simp] theorem writeByte_v (a : Addr) (b : Byte) : (s.writeByte a b).v = s.v := rfl
@[simp] theorem writeByte_pc (a : Addr) (b : Byte) : (s.writeByte a b).pc = s.pc := rfl
@[simp] theorem writeByte_index (a : Addr) (b : Byte) : (s.writeByte a b).index = s.index := rfl
@[simp] theorem writeByte_stack (a : Addr) (b : Byte) : (s.writeByte a b).stack = s.stack := rfl
@[simp] theorem writeByte_dt (a : Addr) (b : Byte) : (s.writeByte a b).dt = s.dt := rfl
@[simp] theorem writeByte_st (a : Addr) (b : Byte) : (s.writeByte a b).st = s.st := rfl
@[simp] theorem writeByte_tick (a : Addr) (b : Byte) : (s.writeByte a b).tick = s.tick := rfl
@[simp] theorem writeByte_disp (a : Addr) (b : Byte) : (s.writeByte a b).disp = s.disp := rfl
@[simp] theorem writeByte_halt (a : Addr) (b : Byte) : (s.writeByte a b).halt = s.halt := rfl
@[simp] theorem writeByte_mem (a : Addr) (b : Byte) : (s.writeByte a b).mem = memWrite s.params.font s.mem a.toNat b := rfl
@[simp] theorem writeByte_frame (a : Addr) (b : Byte) : (s.writeByte a b).frame = s.frame := rfl
@[simp] theorem writeByte_keys (a : Addr) (b : Byte) : (s.writeByte a b).keys = s.keys := rfl
@[simp] theorem writeByte_buzzer (a : Addr) (b : Byte) : (s.writeByte a b).buzzer = s.buzzer := rfl
@[simp] theorem writeByte_ready (a : Addr) (b : Byte) : (s.writeByte a b).ready = s.ready := rfl
@[simp] theorem writeByte_update (a : Addr) (b : Byte) : (s.writeByte a b).update = s.update := rfl
@[simp] theorem writeByte_rand (a : Addr) (b : Byte) : (s.writeByte a b).rand = s.rand := rfl
@[simp] theorem writeByte_snapshot (a : Addr) (b : Byte) : (s.writeByte a b).snapshot = s.snapshot := rfl
@[simp] theorem writeByte_loaded (a : Addr) (b : Byte) : (s.writeByte a b).loaded = s.loaded := rfl
@[simp] theorem writeByte_params (a : Addr) (b : Byte) : (s.writeByte a b).params = s.params := rfl
@[simp] theorem writeByte_hostQueue (a : Addr) (b : Byte) : (s.writeByte a b).hostQueue = s.hostQueue := rfl
@[simp] theorem writeByte_hostClock (a : Addr) (b : Byte) : (s.writeByte a b).hostClock = s.hostClock := rfl

/-! ### pushAddr -/

@[simp] theorem pushAddr_v (a : Addr) : (s.pushAddr a).v = s.v := rfl
@[simp] theorem pushAddr_pc (a : Addr) : (s.pushAddr a).pc = s.pc := rfl
@[simp] theorem pushAddr_index (a : Addr) : (s.pushAddr a).index = s.index := rfl
@[simp] theorem pushAddr_stack (a : Addr) : (s.pushAddr a).stack = a :: s.stack := rfl
@[simp] theorem pushAddr_dt (a : Addr) : (s.pushAddr a).dt = s.dt := rfl
@[simp] theorem pushAddr_st (a : Addr) : (s.pushAddr a).st = s.st := rfl
@[simp] theorem pushAddr_tick (a : Addr) : (s.pushAddr a).tick = s.tick := rfl
@[simp] theorem pushAddr_disp (a : Addr) : (s.pushAddr a).disp = s.disp := rfl
@[simp] theorem pushAddr_halt (a : Addr) : (s.pushAddr a).halt = s.halt := rfl
@[simp] theorem pushAddr_mem (a : Addr) : (s.pushAddr a).mem = s.mem := rfl
@[simp] theorem pushAddr_frame (a : Addr) : (s.pushAddr a).frame = s.frame := rfl
@[simp] theorem pushAddr_keys (a : Addr) : (s.pushAddr a).keys = s.keys := rfl
@[simp] theorem pushAddr_buzzer (a : Addr) : (s.pushAddr a).buzzer = s.buzzer := rfl
@[simp] theorem pushAddr_ready (a : Addr) : (s.pushAddr a).ready = s.ready := rfl
@[simp] theorem pushAddr_update (a : Addr) : (s.pushAddr a).update = s.update := rfl
@[simp] theorem pushAddr_rand (a : Addr) : (s.pushAddr a).rand = s.rand := rfl
@[simp] theorem pushAddr_snapshot (a : Addr) : (s.pushAddr a).snapshot = s.snapshot := rfl
@[simp] theorem pushAddr_loaded (a : Addr) : (s.pushAddr a).loaded = s.loaded := rfl
@[simp] theorem pushAddr_params (a : Addr) : (s.pushAddr a).params = s.params := rfl
@[simp] theorem pushAddr_hostQueue (a : Addr) : (s.pushAddr a).hostQueue = s.hostQueue := rfl
@[simp] theorem pushAddr_hostClock (a : Addr) : (s.pushAddr a).hostClock = s.hostClock := rfl

/-! ### dropTop -/

@[simp] theorem dropTop_v : (s.dropTop).v = s.v := rfl
@[simp] theorem dropTop_pc : (s.dropTop).pc = s.pc := rfl
@[simp] theorem dropTop_index : (s.dropTop).index = s.index := rfl
@[simp] theorem dropTop_stack : (s.dropTop).stack = s.stack.tail := rfl
@[simp] theorem dropTop_dt : (s.dropTop).dt = s.dt := rfl
@[simp] theorem dropTop_st : (s.dropTop).st = s.st := rfl
@[simp] theorem dropTop_tick : (s.dropTop).tick = s.tick := rfl
@[simp] theorem dropTop_disp : (s.dropTop).disp = s.disp := rfl
@[simp] theorem dropTop_halt : (s.dropTop).halt = s.halt := rfl
@[simp] theorem dropTop_mem : (s.dropTop).mem = s.mem := rfl
@[simp] theorem dropTop_frame : (s.dropTop).frame = s.frame := rfl
@[simp] theorem dropTop_keys : (s.dropTop).keys = s.keys := rfl
@[simp] theorem dropTop_buzzer : (s.dropTop).buzzer = s.buzzer := rfl
@[simp] theorem dropTop_ready : (s.dropTop).ready = s.ready := rfl
@[simp] theorem dropTop_update : (s.dropTop).update = s.update := rfl
@[simp] theorem dropTop_rand : (s.dropTop).rand = s.rand := rfl
@[simp] theorem dropTop_snapshot : (s.dropTop).snapshot = s.snapshot := rfl
@[simp] theorem dropTop_loaded : (s.dropTop).loaded = s.loaded := rfl
@[simp] theorem dropTop_params : (s.dropTop).params = s.params := rfl
@[simp] theorem dropTop_hostQueue : (s.dropTop).hostQueue = s.hostQueue := rfl
@[simp] theorem dropTop_hostClock : (s.dropTop).hostClock = s.hostClock := rfl

/-! ### setDisp -/

@[simp] theorem setDisp_v (d : Display) : (s.setDisp d).v = s.v := rfl
@[simp] theorem setDisp_pc (d : Display) : (s.setDisp d).pc = s.pc := rfl
@[simp] theorem setDisp_index (d : Display) : (s.setDisp d).index = s.index := rfl
@[simp] theorem setDisp_stack (d : Display) : (s.setDisp d).stack = s.stack := rfl
@[simp] theorem setDisp_dt (d : Display) : (s.setDisp d).dt = s.dt := rfl
@[simp] theorem setDisp_st (d : Display) : (s.setDisp d).st = s.st := rfl
@[simp] theorem setDisp_tick (d : Display) : (s.setDisp d).tick = s.tick := rfl
@[simp] theorem setDisp_disp (d : Display) : (s.setDisp d).disp = d := rfl
@[simp] theorem setDisp_halt (d : Display) : (s.setDisp d).halt = s.halt := rfl
@[simp] theorem setDisp_mem (d : Display) : (s.setDisp d).mem = s.mem := rfl
@[simp] theorem setDisp_frame (d : Display) : (s.setDisp d).frame = s.frame := rfl
@[simp] theorem setDisp_keys (d : Display) : (s.setDisp d).keys = s.keys := rfl
@[simp] theorem setDisp_buzzer (d : Display) : (s.setDisp d).buzzer = s.buzzer := rfl
@[simp] theorem setDisp_ready (d : Display) : (s.setDisp d).ready = s.ready := rfl
@[simp] theorem setDisp_update (d : Display) : (s.setDisp d).update = s.update := rfl
@[simp] theorem setDisp_rand (d : Display) : (s.setDisp d).rand = s.rand := rfl
@[simp] theorem setDisp_snapshot (d : Display) : (s.setDisp d).snapshot = s.snapshot := rfl
@[simp] theorem setDisp_loaded (d : Display) : (s.setDisp d).loaded = s.loaded := rfl
@[simp] theorem setDisp_params (d : Display) : (s.setDisp d).params = s.params := rfl
@[simp] theorem setDisp_hostQueue (d : Display) : (s.setDisp d).hostQueue = s.hostQueue := rfl
@[simp] theorem setDisp_hostClock (d : Display) : (s.setDisp d).hostClock = s.hostClock := rfl

/-! ### emitUpdate -/

@[simp] theorem emitUpdate_v : (s.emitUpdate).v = s.v := rfl
@[simp] theorem emitUpdate_pc : (s.emitUpdate).pc = s.pc := rfl
@[simp] theorem emitUpdate_index : (s.emitUpdate).index = s.index := rfl
@[simp] theorem emitUpdate_stack : (s.emitUpdate).stack = s.stack := rfl
@[simp] theorem emitUpdate_dt : (s.emitUpdate).dt = s.dt := rfl
@[simp] theorem emitUpdate_st : (s.emitUpdate).st = s.st := rfl
@[simp] theorem emitUpdate_tick : (s.emitUpdate).tick = s.tick := rfl
@[simp] theorem emitUpdate_disp : (s.emitUpdate).disp = s.disp := rfl
@[simp] theorem emitUpdate_halt : (s.emitUpdate).halt = s.halt := rfl
@[simp] theorem emitUpdate_mem : (s.emitUpdate).mem = s.mem := rfl
@[simp] theorem emitUpdate_frame : (s.emitUpdate).frame = s.frame := rfl
@[simp] theorem emitUpdate_keys : (s.emitUpdate).keys = s.keys := rfl
@[simp] theorem emitUpdate_buzzer : (s.emitUpdate).buzzer = s.buzzer := rfl
@[simp] theorem emitUpdate_ready : (s.emitUpdate).ready = s.ready := rfl
@[simp] theorem emitUpdate_update : (s.emitUpdate).update = some s.disp := rfl
@[simp] theorem emitUpdate_rand : (s.emitUpdate).rand = s.rand := rfl
@[simp] theorem emitUpdate_snapshot : (s.emitUpdate).snapshot = s.snapshot := rfl
@[simp] theorem emitUpdate_loaded : (s.emitUpdate).loaded = s.loaded := rfl
@[simp] theorem emitUpdate_params : (s.emitUpdate).params = s.params := rfl
@[simp] theorem emitUpdate_hostQueue : (s.emitUpdate).hostQueue = s.hostQueue := rfl
@[simp] theorem emitUpdate_hostClock : (s.emitUpdate).hostClock = s.hostClock := rfl

/-! ### skipIf -/

@[simp] theorem skipIf_v (c : Bool) : (s.skipIf c).v = s.v := rfl
@[simp] theorem skipIf_pc (c : Bool) : (s.skipIf c).pc = if c then s.pc + 2 else s.pc := rfl
@[simp] theorem skipIf_index (c : Bool) : (s.skipIf c).index = s.index := rfl
@[simp] theorem skipIf_stack (c : Bool) : (s.skipIf c).stack = s.stack := rfl
@[simp] theorem skipIf_dt (c : Bool) : (s.skipIf c).dt = s.dt := rfl
@[simp] theorem skipIf_st (c : Bool) : (s.skipIf c).st = s.st := rfl
@[simp] theorem skipIf_tick (c : Bool) : (s.skipIf c).tick = s.tick := rfl
@[simp] theorem skipIf_disp (c : Bool) : (s.skipIf c).disp = s.disp := rfl
@[simp] theorem skipIf_halt (c : Bool) : (s.skipIf c).halt = s.halt := rfl
@[simp] theorem skipIf_mem (c : Bool) : (s.skipIf c).mem = s.mem := rfl
@[simp] theorem skipIf_frame (c : Bool) : (s.skipIf c).frame = s.frame := rfl
@[simp] theorem skipIf_keys (c : Bool) : (s.skipIf c).keys = s.keys := rfl
@[simp] theorem skipIf_buzzer (c : Bool) : (s.skipIf c).buzzer = s.buzzer := rfl
@[simp] theorem skipIf_ready (c : Bool) : (s.skipIf c).ready = s.ready := rfl
@[simp] theorem skipIf_update (c : Bool) : (s.skipIf c).update = s.update := rfl
@[simp] theorem skipIf_rand (c : Bool) : (s.skipIf c).rand = s.rand := rfl
@[simp] theorem skipIf_snapshot (c : Bool) : (s.skipIf c).snapshot = s.snapshot := rfl
@[simp] theorem skipIf_loaded (c : Bool) : (s.skipIf c).loaded = s.loaded := rfl
@[simp] theorem skipIf_params (c : Bool) : (s.skipIf c).params = s.params := rfl
@[simp] theorem skipIf_hostQueue (c : Bool) : (s.skipIf c).hostQueue = s.hostQueue := rfl
@[simp] theorem skipIf_hostClock (c : Bool) : (s.skipIf c).hostClock = s.hostClock := rfl

/-! ### advance -/

@[simp] theorem advance_v : (s.advance).v = s.v := rfl
@[simp] theorem advance_pc : (s.advance).pc = s.pc + 2 := rfl
@[simp] theorem advance_index : (s.advance).index = s.index := rfl
@[simp] theorem advance_stack : (s.advance).stack = s.stack := rfl
@[simp] theorem advance_dt : (s.advance).dt = s.dt := rfl
@[simp] theorem advance_st : (s.advance).st = s.st := rfl
@[simp] theorem advance_tick : (s.advance).tick = s.tick := rfl
@[simp] theorem advance_disp : (s.advance).disp = s.disp := rfl
@[simp] theorem advance_halt : (s.advance).halt = s.halt := rfl
@[simp] theorem advance_mem : (s.advance).mem = s.mem := rfl
@[simp] theorem advance_frame : (s.advance).frame = s.frame := rfl
@[simp] theorem advance_keys : (s.advance).keys = s.keys := rfl
@[simp] theorem advance_buzzer : (s.advance).buzzer = s.buzzer := rfl
@[simp] theorem advance_ready : (s.advance).ready = s.ready := rfl
@[simp] theorem advance_update : (s.advance).update = s.update := rfl
@[simp] theorem advance_rand : (s.advance).rand = s.rand := rfl
@[simp] theorem advance_snapshot : (s.advance).snapshot = s.snapshot := rfl
@[simp] theorem advance_loaded : (s.advance).loaded = s.loaded := rfl
@[simp] theorem advance_params : (s.advance).params = s.params := rfl
@[simp] theorem advance_hostQueue : (s.advance).hostQueue = s.hostQueue := rfl
@[simp] theorem advance_hostClock : (s.advance).hostClock = s.hostClock := rfl

/-! ### timerTick -/

@[simp] theorem timerTick_v : (s.timerTick).v = s.v := rfl
@[simp] theorem timerTick_pc : (s.timerTick).pc = s.pc := rfl
@[simp] theorem timerTick_index : (s.timerTick).index = s.index := rfl
@[simp] theorem timerTick_stack : (s.timerTick).stack = s.stack := rfl
@[simp] theorem timerTick_dt : (s.timerTick).dt = if s.tickDue then decTimer s.dt else s.dt := rfl
@[simp] theorem timerTick_st : (s.timerTick).st = if s.tickDue then decTimer s.st else s.st := rfl
@[simp] theorem timerTick_tick : (s.timerTick).tick = if s.tickDue then 0 else s.tick + 1 := rfl
@[simp] theorem timerTick_disp : (s.timerTick).disp = s.disp := rfl
@[simp] theorem timerTick_halt : (s.timerTick).halt = s.halt := rfl
@[simp] theorem timerTick_mem : (s.timerTick).mem = s.mem := rfl
@[simp] theorem timerTick_frame : (s.timerTick).frame = s.frame := rfl
@[simp] theorem timerTick_keys : (s.timerTick).keys = s.keys := rfl
@[simp] theorem timerTick_buzzer : (s.timerTick).buzzer = s.buzzer := rfl
@[simp] theorem timerTick_ready : (s.timerTick).ready = s.ready := rfl
@[simp] theorem timerTick_update : (s.timerTick).update = s.update := rfl
@[simp] theorem timerTick_rand : (s.timerTick).rand = s.rand := rfl
@[simp] theorem timerTick_snapshot : (s.timerTick).snapshot = s.snapshot := rfl
@[simp] theorem timerTick_loaded : (s.timerTick).loaded = s.loaded := rfl
@[simp] theorem timerTick_params : (s.timerTick).params = s.params := rfl
@[simp] theorem timerTick_hostQueue : (s.timerTick).hostQueue = s.hostQueue := rfl
@[simp] theorem timerTick_hostClock : (s.timerTick).hostClock = s.hostClock := rfl

/-! ### publishUpdate -/

@[simp] theorem publishUpdate_v : (s.publishUpdate).v = s.v := rfl
@[simp] theorem publishUpdate_pc : (s.publishUpdate).pc = s.pc := rfl
@[simp] theorem publishUpdate_index : (s.publishUpdate).index = s.index := rfl
@[simp] theorem publishUpdate_stack : (s.publishUpdate).stack = s.stack := rfl
@[simp] theorem publishUpdate_dt : (s.publishUpdate).dt = s.dt := rfl
@[simp] theorem publishUpdate_st : (s.publishUpdate).st = s.st := rfl
@[simp] theorem publishUpdate_tick : (s.publishUpdate).tick = s.tick := rfl
@[simp] theorem publishUpdate_disp : (s.publishUpdate).disp = s.disp := rfl
@[simp] theorem publishUpdate_halt : (s.publishUpdate).halt = s.halt := rfl
@[simp] theorem publishUpdate_mem : (s.publishUpdate).mem = s.mem := rfl
@[simp] theorem publishUpdate_keys : (s.publishUpdate).keys = s.keys := rfl
@[simp] theorem publishUpdate_buzzer : (s.publishUpdate).buzzer = s.buzzer := rfl
@[simp] theorem publishUpdate_ready : (s.publishUpdate).ready = s.ready := rfl
@[simp] theorem publishUpdate_update : (s.publishUpdate).update = s.update := rfl
@[simp] theorem publishUpdate_rand : (s.publishUpdate).rand = s.rand := rfl
@[simp] theorem publishUpdate_snapshot : (s.publishUpdate).snapshot = s.snapshot := rfl
@[simp] theorem publishUpdate_loaded : (s.publishUpdate).loaded = s.loaded := rfl
@[simp] theorem publishUpdate_params : (s.publishUpdate).params = s.params := rfl
@[simp] theorem publishUpdate_hostQueue : (s.publishUpdate).hostQueue = s.hostQueue := rfl
@[simp] theorem publishUpdate_hostClock : (s.publishUpdate).hostClock = s.hostClock := rfl

/-! ### writeBuzzer -/

@[simp] theorem writeBuzzer_v : (s.writeBuzzer).v = s.v := rfl
@[simp] theorem writeBuzzer_pc : (s.writeBuzzer).pc = s.pc := rfl
@[simp] theorem writeBuzzer_index : (s.writeBuzzer).index = s.index := rfl
@[simp] theorem writeBuzzer_stack : (s.writeBuzzer).stack = s.stack := rfl
@[simp] theorem writeBuzzer_dt : (s.writeBuzzer).dt = s.dt := rfl
@[simp] theorem writeBuzzer_st : (s.writeBuzzer).st = s.st := rfl
@[simp] theorem writeBuzzer_tick : (s.writeBuzzer).tick = s.tick := rfl
@[simp] theorem writeBuzzer_disp : (s.writeBuzzer).disp = s.disp := rfl
@[simp] theorem writeBuzzer_halt : (s.writeBuzzer).halt = s.halt := rfl
@[simp] theorem writeBuzzer_mem : (s.writeBuzzer).mem = s.mem := rfl
@[simp] theorem writeBuzzer_frame : (s.writeBuzzer).frame = s.frame := rfl
@[simp] theorem writeBuzzer_keys : (s.writeBuzzer).keys = s.keys := rfl
@[simp] theorem writeBuzzer_buzzer : (s.writeBuzzer).buzzer = s.buzzerActive := rfl
@[simp] theorem writeBuzzer_ready : (s.writeBuzzer).ready = s.ready := rfl
@[simp] theorem writeBuzzer_update : (s.writeBuzzer).update = s.update := rfl
@[simp] theorem writeBuzzer_rand : (s.writeBuzzer).rand = s.rand := rfl
@[simp] theorem writeBuzzer_snapshot : (s.writeBuzzer).snapshot = s.snapshot := rfl
@[simp] theorem writeBuzzer_loaded : (s.writeBuzzer).loaded = s.loaded := rfl
@[simp] theorem writeBuzzer_params : (s.writeBuzzer).params = s.params := rfl
@[simp] theorem writeBuzzer_hostQueue : (s.writeBuzzer).hostQueue = s.hostQueue := rfl
@[simp] theorem writeBuzzer_hostClock : (s.writeBuzzer).hostClock = s.hostClock := rfl

/-! ### readKeys -/

@[simp] theorem readKeys_v : (s.readKeys).v = s.v := rfl
@[simp] theorem readKeys_pc : (s.readKeys).pc = s.pc := rfl
@[simp] theorem readKeys_index : (s.readKeys).index = s.index := rfl
@[simp] theorem readKeys_stack : (s.readKeys).stack = s.stack := rfl
@[simp] theorem readKeys_dt : (s.readKeys).dt = s.dt := rfl
@[simp] theorem readKeys_st : (s.readKeys).st = s.st := rfl
@[simp] theorem readKeys_tick : (s.readKeys).tick = s.tick := rfl
@[simp] theorem readKeys_disp : (s.readKeys).disp = s.disp := rfl
@[simp] theorem readKeys_halt : (s.readKeys).halt = s.halt := rfl
@[simp] theorem readKeys_mem : (s.readKeys).mem = s.mem := rfl
@[simp] theorem readKeys_frame : (s.readKeys).frame = s.frame := rfl
@[simp] theorem readKeys_keys : (s.readKeys).keys = s.keys := rfl
@[simp] theorem readKeys_buzzer : (s.readKeys).buzzer = s.buzzer := rfl
@[simp] theorem readKeys_ready : (s.readKeys).ready = s.ready := rfl
@[simp] theorem readKeys_update : (s.readKeys).update = s.update := rfl
@[simp] theorem readKeys_rand : (s.readKeys).rand = s.rand := rfl
@[simp] theorem readKeys_snapshot : (s.readKeys).snapshot = s.keys := rfl
@[simp] theorem readKeys_loaded : (s.readKeys).loaded = s.loaded := rfl
@[simp] theorem readKeys_params : (s.readKeys).params = s.params := rfl
@[simp] theorem readKeys_hostQueue : (s.readKeys).hostQueue = s.hostQueue := rfl
@[simp] theorem readKeys_hostClock : (s.readKeys).hostClock = s.hostClock := rfl

/-! ### publishKeys -/

@[simp] theorem publishKeys_v (k : Option Keys) : (s.publishKeys k).v = s.v := rfl
@[simp] theorem publishKeys_pc (k : Option Keys) : (s.publishKeys k).pc = s.pc := rfl
@[simp] theorem publishKeys_index (k : Option Keys) : (s.publishKeys k).index = s.index := rfl
@[simp] theorem publishKeys_stack (k : Option Keys) : (s.publishKeys k).stack = s.stack := rfl
@[simp] theorem publishKeys_dt (k : Option Keys) : (s.publishKeys k).dt = s.dt := rfl
@[simp] theorem publishKeys_st (k : Option Keys) : (s.publishKeys k).st = s.st := rfl
@[simp] theorem publishKeys_tick (k : Option Keys) : (s.publishKeys k).tick = s.tick := rfl
@[simp] theorem publishKeys_disp (k : Option Keys) : (s.publishKeys k).disp = s.disp := rfl
@[simp] theorem publishKeys_halt (k : Option Keys) : (s.publishKeys k).halt = s.halt := rfl
@[simp] theorem publishKeys_mem (k : Option Keys) : (s.publishKeys k).mem = s.mem := rfl
@[simp] theorem publishKeys_frame (k : Option Keys) : (s.publishKeys k).frame = s.frame := rfl
@[simp] theorem publishKeys_keys (k : Option Keys) : (s.publishKeys k).keys = k.getD s.keys := rfl
@[simp] theorem publishKeys_buzzer (k : Option Keys) : (s.publishKeys k).buzzer = s.buzzer := rfl
@[simp] theorem publishKeys_ready (k : Option Keys) : (s.publishKeys k).ready = s.ready := rfl
@[simp] theorem publishKeys_update (k : Option Keys) : (s.publishKeys k).update = s.update := rfl
@[simp] theorem publishKeys_rand (k : Option Keys) : (s.publishKeys k).rand = s.rand := rfl
@[simp] theorem publishKeys_snapshot (k : Option Keys) : (s.publishKeys k).snapshot = s.snapshot := rfl
@[simp] theorem publishKeys_loaded (k : Option Keys) : (s.publishKeys k).loaded = s.loaded := rfl
@[simp] theorem publishKeys_params (k : Option Keys) : (s.publishKeys k).params = s.params := rfl
@[simp] theorem publishKeys_hostQueue (k : Option Keys) : (s.publishKeys k).hostQueue = s.hostQueue := rfl
@[simp] theorem publishKeys_hostClock (k : Option Keys) : (s.publishKeys k).hostClock = s.hostClock := rfl

/-! ### drainFrame -/

@[simp] theorem drainFrame_v (b : Bool) : (s.drainFrame b).v = s.v := rfl
@[simp] theorem drainFrame_pc (b : Bool) : (s.drainFrame b).pc = s.pc := rfl
@[simp] theorem drainFrame_index (b : Bool) : (s.drainFrame b).index = s.index := rfl
@[simp] theorem drainFrame_stack (b : Bool) : (s.drainFrame b).stack = s.stack := rfl
@[simp] theorem drainFrame_dt (b : Bool) : (s.drainFrame b).dt = s.dt := rfl
@[simp] theorem drainFrame_st (b : Bool) : (s.drainFrame b).st = s.st := rfl
@[simp] theorem drainFrame_tick (b : Bool) : (s.drainFrame b).tick = s.tick := rfl
@[simp] theorem drainFrame_disp (b : Bool) : (s.drainFrame b).disp = s.disp := rfl
@[simp] theorem drainFrame_halt (b : Bool) : (s.drainFrame b).halt = s.halt := rfl
@[simp] theorem drainFrame_mem (b : Bool) : (s.drainFrame b).mem = s.mem := rfl
@[simp] theorem drainFrame_frame (b : Bool) : (s.drainFrame b).frame = ⟨s.frame.data, s.frame.consumed || b⟩ := rfl
@[simp] theorem drainFrame_keys (b : Bool) : (s.drainFrame b).keys = s.keys := rfl
@[simp] theorem drainFrame_buzzer (b : Bool) : (s.drainFrame b).buzzer = s.buzzer := rfl
@[simp] theorem drainFrame_ready (b : Bool) : (s.drainFrame b).ready = s.ready := rfl
@[simp] theorem drainFrame_update (b : Bool) : (s.drainFrame b).update = s.update := rfl
@[simp] theorem drainFrame_rand (b : Bool) : (s.drainFrame b).rand = s.rand := rfl
@[simp] theorem drainFrame_snapshot (b : Bool) : (s.drainFrame b).snapshot = s.snapshot := rfl
@[simp] theorem drainFrame_loaded (b : Bool) : (s.drainFrame b).loaded = s.loaded := rfl
@[simp] theorem drainFrame_params (b : Bool) : (s.drainFrame b).params = s.params := rfl
@[simp] theorem drainFrame_hostQueue (b : Bool) : (s.drainFrame b).hostQueue = s.hostQueue := rfl
@[simp] theorem drainFrame_hostClock (b : Bool) : (s.drainFrame b).hostClock = s.hostClock := rfl

/-! ### signalReady -/

@[simp] theorem signalReady_v (b : Bool) : (s.signalReady b).v = s.v := rfl
@[simp] theorem signalReady_pc (b : Bool) : (s.signalReady b).pc = s.pc := rfl
@[simp] theorem signalReady_index (b : Bool) : (s.signalReady b).index = s.index := rfl
@[simp] theorem signalReady_stack (b : Bool) : (s.signalReady b).stack = s.stack := rfl
@[simp] theorem signalReady_dt (b : Bool) : (s.signalReady b).dt = s.dt := rfl
@[simp] theorem signalReady_st (b : Bool) : (s.signalReady b).st = s.st := rfl
@[simp] theorem signalReady_tick (b : Bool) : (s.signalReady b).tick = s.tick := rfl
@[simp] theorem signalReady_disp (b : Bool) : (s.signalReady b).disp = s.disp := rfl
@[simp] theorem signalReady_halt (b : Bool) : (s.signalReady b).halt = s.halt := rfl
@[simp] theorem signalReady_mem (b : Bool) : (s.signalReady b).mem = s.mem := rfl
@[simp] theorem signalReady_frame (b : Bool) : (s.signalReady b).frame = s.frame := rfl
@[simp] theorem signalReady_keys (b : Bool) : (s.signalReady b).keys = s.keys := rfl
@[simp] theorem signalReady_buzzer (b : Bool) : (s.signalReady b).buzzer = s.buzzer := rfl
@[simp] theorem signalReady_ready (b : Bool) : (s.signalReady b).ready = (s.ready || b) := rfl
@[simp] theorem signalReady_update (b : Bool) : (s.signalReady b).update = s.update := rfl
@[simp] theorem signalReady_rand (b : Bool) : (s.signalReady b).rand = s.rand := rfl
@[simp] theorem signalReady_snapshot (b : Bool) : (s.signalReady b).snapshot = s.snapshot := rfl
@[simp] theorem signalReady_loaded (b : Bool) : (s.signalReady b).loaded = s.loaded := rfl
@[simp] theorem signalReady_params (b : Bool) : (s.signalReady b).params = s.params := rfl
@[simp] theorem signalReady_hostQueue (b : Bool) : (s.signalReady b).hostQueue = s.hostQueue := rfl
@[simp] theorem signalReady_hostClock (b : Bool) : (s.signalReady b).hostClock = s.hostClock := rfl

/-! ### supplyRandom -/

@[simp] theorem supplyRandom_v (b : Byte) : (s.supplyRandom b).v = s.v := rfl
@[simp] theorem supplyRandom_pc (b : Byte) : (s.supplyRandom b).pc = s.pc := rfl
@[simp] theorem supplyRandom_index (b : Byte) : (s.supplyRandom b).index = s.index := rfl
@[simp] theorem supplyRandom_stack (b : Byte) : (s.supplyRandom b).stack = s.stack := rfl
@[simp] theorem supplyRandom_dt (b : Byte) : (s.supplyRandom b).dt = s.dt := rfl
@[simp] theorem supplyRandom_st (b : Byte) : (s.supplyRandom b).st = s.st := rfl
@[simp] theorem supplyRandom_tick (b : Byte) : (s.supplyRandom b).tick = s.tick := rfl
@[simp] theorem supplyRandom_disp (b : Byte) : (s.supplyRandom b).disp = s.disp := rfl
@[simp] theorem supplyRandom_halt (b : Byte) : (s.supplyRandom b).halt = s.halt := rfl
@[simp] theorem supplyRandom_mem (b : Byte) : (s.supplyRandom b).mem = s.mem := rfl
@[simp] theorem supplyRandom_frame (b : Byte) : (s.supplyRandom b).frame = s.frame := rfl
@[simp] theorem supplyRandom_keys (b : Byte) : (s.supplyRandom b).keys = s.keys := rfl
@[simp] theorem supplyRandom_buzzer (b : Byte) : (s.supplyRandom b).buzzer = s.buzzer := rfl
@[simp] theorem supplyRandom_ready (b : Byte) : (s.supplyRandom b).ready = s.ready := rfl
@[simp] theorem supplyRandom_update (b : Byte) : (s.supplyRandom b).update = s.update := rfl
@[simp] theorem supplyRandom_rand (b : Byte) : (s.supplyRandom b).rand = b := rfl
@[simp] theorem supplyRandom_snapshot (b : Byte) : (s.supplyRandom b).snapshot = s.snapshot := rfl
@[simp] theorem supplyRandom_loaded (b : Byte) : (s.supplyRandom b).loaded = s.loaded := rfl
@[simp] theorem supplyRandom_params (b : Byte) : (s.supplyRandom b).params = s.params := rfl
@[simp] theorem supplyRandom_hostQueue (b : Byte) : (s.supplyRandom b).hostQueue = s.hostQueue := rfl
@[simp] theorem supplyRandom_hostClock (b : Byte) : (s.supplyRandom b).hostClock = s.hostClock := rfl

/-! ### applyHost -/

@[simp] theorem applyHost_v (m : HostMoves) : (s.applyHost m).v = s.v := rfl
@[simp] theorem applyHost_pc (m : HostMoves) : (s.applyHost m).pc = s.pc := rfl
@[simp] theorem applyHost_index (m : HostMoves) : (s.applyHost m).index = s.index := rfl
@[simp] theorem applyHost_stack (m : HostMoves) : (s.applyHost m).stack = s.stack := rfl
@[simp] theorem applyHost_dt (m : HostMoves) : (s.applyHost m).dt = s.dt := rfl
@[simp] theorem applyHost_st (m : HostMoves) : (s.applyHost m).st = s.st := rfl
@[simp] theorem applyHost_tick (m : HostMoves) : (s.applyHost m).tick = s.tick := rfl
@[simp] theorem applyHost_disp (m : HostMoves) : (s.applyHost m).disp = s.disp := rfl
@[simp] theorem applyHost_halt (m : HostMoves) : (s.applyHost m).halt = s.halt := rfl
@[simp] theorem applyHost_mem (m : HostMoves) : (s.applyHost m).mem = s.mem := rfl
@[simp] theorem applyHost_frame (m : HostMoves) : (s.applyHost m).frame = ⟨s.frame.data, s.frame.consumed || m.drains⟩ := rfl
@[simp] theorem applyHost_keys (m : HostMoves) : (s.applyHost m).keys = m.publishes.getD s.keys := rfl
@[simp] theorem applyHost_buzzer (m : HostMoves) : (s.applyHost m).buzzer = s.buzzer := rfl
@[simp] theorem applyHost_ready (m : HostMoves) : (s.applyHost m).ready = (s.ready || m.signalsReady) := rfl
@[simp] theorem applyHost_update (m : HostMoves) : (s.applyHost m).update = s.update := rfl
@[simp] theorem applyHost_rand (m : HostMoves) : (s.applyHost m).rand = m.randomByte := rfl
@[simp] theorem applyHost_snapshot (m : HostMoves) : (s.applyHost m).snapshot = s.snapshot := rfl
@[simp] theorem applyHost_loaded (m : HostMoves) : (s.applyHost m).loaded = s.loaded := rfl
@[simp] theorem applyHost_params (m : HostMoves) : (s.applyHost m).params = s.params := rfl
@[simp] theorem applyHost_hostQueue (m : HostMoves) : (s.applyHost m).hostQueue = s.hostQueue := rfl
@[simp] theorem applyHost_hostClock (m : HostMoves) : (s.applyHost m).hostClock = s.hostClock := rfl

end Sys2Proof.Machine
end

