-- ==== Sys2Proof/Laws/Memory.lean ====
section
/-! SUPPORT. Memory: a read after a write, the canonical form, and what a run of byte writes does (20_memory.md R41, R45,
R47). -/

namespace Sys2Proof.Machine

/-! ### The list -/

theorem memLookup_insert (m : Mem) (a b : Nat) (v : Byte) :
    memLookup (memInsert a v m) b = if b = a then some v else memLookup m b := by
  induction m with
  | nil => simp [memInsert, memLookup, eq_comm]
  | cons c rest ih =>
    obtain ⟨k, u⟩ := c
    unfold memInsert
    split
    · simp [memLookup, eq_comm]
    · split
      · next h => subst h; by_cases hb : a = b <;> simp [memLookup, hb, eq_comm]
      · by_cases hb : k = b
        · subst hb; simp [memLookup]; omega
        · simp [memLookup, hb, ih]

theorem memLookup_erase (m : Mem) (a b : Nat) :
    memLookup (memErase a m) b = if b = a then none else memLookup m b := by
  induction m with
  | nil => simp [memErase, memLookup]
  | cons c rest ih =>
    obtain ⟨k, u⟩ := c
    by_cases hk : k = a
    · subst hk
      by_cases hb : b = k
      · subst hb; simpa [memErase] using ih
      · simp [memErase, ih, hb, memLookup, Ne.symm hb]
    · by_cases hb : k = b
      · subst hb; simp [memErase, hk, memLookup]
      · simp [memErase, hk, memLookup, hb, ih]

/-- A read after a write: the byte written at that address, the byte of before elsewhere. -/
theorem memRead_write (font : Vector Byte 80) (m : Mem) (a b : Nat) (v : Byte) :
    memRead font (memWrite font m a v) b = if b = a then v else memRead font m b := by
  unfold memRead memWrite
  split
  · next h =>
    rw [memLookup_erase]
    split
    · next hb => subst hb; simp [h]
    · rfl
  · rw [memLookup_insert]
    split <;> rfl

/-! ### The canonical form -/

theorem memErase_all (p : Nat × Byte → Bool) (a : Nat) (m : Mem) (h : m.all p = true) : (memErase a m).all p = true := by
  induction m with
  | nil => rfl
  | cons c rest ih =>
    obtain ⟨k, u⟩ := c
    simp only [List.all_cons, Bool.and_eq_true] at h
    unfold memErase
    split
    · exact ih h.2
    · simp [h.1, ih h.2]

theorem memInsert_all (p : Nat × Byte → Bool) (a : Nat) (v : Byte) (m : Mem) (ha : p (a, v) = true)
    (h : m.all p = true) : (memInsert a v m).all p = true := by
  induction m with
  | nil => simp [memInsert, ha]
  | cons c rest ih =>
    obtain ⟨k, u⟩ := c
    simp only [List.all_cons, Bool.and_eq_true] at h
    unfold memInsert
    split
    · simp [ha, h.1, h.2]
    · split
      · simp [ha, h.2]
      · simp [h.1, ih h.2]

theorem memErase_wf (font : Vector Byte 80) (a : Nat) (m : Mem) (h : Memory.wf font m = true) :
    Memory.wf font (memErase a m) = true := by
  induction m with
  | nil => rfl
  | cons c rest ih =>
    obtain ⟨k, u⟩ := c
    simp only [Memory.wf, Bool.and_eq_true] at h
    obtain ⟨⟨⟨hk, hu⟩, hall⟩, hrest⟩ := h
    unfold memErase
    split
    · exact ih hrest
    · simp only [Memory.wf, Bool.and_eq_true]
      exact ⟨⟨⟨hk, hu⟩, memErase_all _ _ _ hall⟩, ih hrest⟩

theorem memInsert_wf (font : Vector Byte 80) (a : Nat) (v : Byte) (m : Mem) (ha : a < 4096)
    (hv : v ≠ creationByte font a) (h : Memory.wf font m = true) : Memory.wf font (memInsert a v m) = true := by
  induction m with
  | nil => simp [memInsert, Memory.wf, ha, hv]
  | cons c rest ih =>
    obtain ⟨k, u⟩ := c
    have h0 := h
    simp only [Memory.wf, Bool.and_eq_true] at h
    obtain ⟨⟨⟨hk, hu⟩, hall⟩, hrest⟩ := h
    unfold memInsert
    split
    · next hlt =>
      rw [Memory.wf]
      simp only [Bool.and_eq_true, List.all_cons, decide_eq_true_eq, bne_iff_ne]
      refine ⟨⟨⟨ha, hv⟩, hlt, ?_⟩, h0⟩
      rw [List.all_eq_true] at hall ⊢
      intro c hc
      have := hall c hc
      simp only [decide_eq_true_eq] at this ⊢
      omega
    · split
      · next he => subst he; simp [Memory.wf, ha, hv, hall, hrest]
      · next hlt hne =>
        rw [Memory.wf]
        simp only [Bool.and_eq_true]
        exact ⟨⟨⟨hk, hu⟩, memInsert_all _ _ _ _ (by simp; omega) hall⟩, ih hrest⟩

/-- Every write keeps the canonical form. -/
theorem memWrite_wf (font : Vector Byte 80) (m : Mem) (a : Nat) (v : Byte) (ha : a < 4096)
    (h : Memory.wf font m = true) : Memory.wf font (memWrite font m a v) = true := by
  unfold memWrite
  split
  · exact memErase_wf font a m h
  · next hv => exact memInsert_wf font a v m ha hv h

/-! ### The operations of the state -/

/-- `MemRead` after `MemWrite` (R47). -/
theorem readByte_writeByte (s : State) (a b : Addr) (v : Byte) :
    (s.writeByte a v).readByte b = if b = a then v else s.readByte b := by
  simp only [State.readByte, writeByte_params, writeByte_mem, memRead_write, BitVec.toNat_inj]

@[simp] theorem readByte_writeByte_same (s : State) (a : Addr) (v : Byte) : (s.writeByte a v).readByte a = v := by
  simp [readByte_writeByte]

theorem writeByte_wf (s : State) (a : Addr) (v : Byte) (h : Memory.wf s.params.font s.mem = true) :
    Memory.wf (s.writeByte a v).params.font (s.writeByte a v).mem = true :=
  memWrite_wf _ _ _ _ a.isLt h

/-- A state whose memory and parameters are those of another reads every byte as the other does. -/
theorem sameMemory_of_eq {s t : State} (hm : t.mem = s.mem) (hp : t.params = s.params) : SameMemory s t := by
  intro a; simp [State.readByte, hm, hp]

/-- A run of writes changes memory alone. -/
theorem writeBytes_eq (s : State) (a : Addr) (bs : List Byte) :
    s.writeBytes a bs = { s with mem := (s.writeBytes a bs).mem } := by
  induction bs generalizing s a with
  | nil => rfl
  | cons b bs ih => simp only [State.writeBytes]; rw [ih]; rfl

theorem writeBytes_wf (s : State) (a : Addr) (bs : List Byte) (h : Memory.wf s.params.font s.mem = true) :
    Memory.wf s.params.font (s.writeBytes a bs).mem = true := by
  induction bs generalizing s a with
  | nil => exact h
  | cons b bs ih => exact ih (s.writeByte a b) (a + 1) (writeByte_wf s a b h)

/-- What a run of writes of at most 4096 bytes leaves at every address: the byte at that offset (mod 4096) from the start
where the run reaches it, and the byte of before elsewhere (R45). -/
theorem readByte_writeBytes (s : State) (a b : Addr) (bs : List Byte) (hlen : bs.length ≤ 4096) :
    (s.writeBytes a bs).readByte b = bs[(b - a).toNat]?.getD (s.readByte b) := by
  induction bs generalizing s a with
  | nil => rfl
  | cons c cs ih =>
    simp only [List.length_cons] at hlen
    simp only [State.writeBytes]
    rw [ih (s.writeByte a c) (a + 1) (by omega)]
    by_cases hb : b = a
    · subst hb
      have h1 : (b - (b + 1)).toNat = 4095 := by
        have : b - (b + 1) = 0xFFF#12 := by bv_omega
        rw [this]; rfl
      rw [h1, List.getElem?_eq_none (by omega)]
      simp
    · have h2 : (b - a).toNat = (b - (a + 1)).toNat + 1 := by
        have : b.toNat ≠ a.toNat := fun h => hb (BitVec.eq_of_toNat_eq h)
        bv_omega
      rw [h2]
      simp [readByte_writeByte, hb]

/-- The same, at the address `a + k` of the run's `k`-th byte. -/
theorem readByte_writeBytes_at (s : State) (a : Addr) (bs : List Byte) (k : Nat) (hlen : bs.length ≤ 4096)
    (hk : k < bs.length) : (s.writeBytes a bs).readByte (a + BitVec.ofNat 12 k) = bs[k] := by
  rw [readByte_writeBytes _ _ _ _ hlen]
  have : (a + BitVec.ofNat 12 k - a).toNat = k := by
    have : k < 4096 := by omega
    bv_omega
  rw [this]
  simp [hk]

end Sys2Proof.Machine
end

