-- ==== Sys2Proof/Laws/Registers.lean ====
section
/-! SUPPORT. Registers: a read after a write, the block load and the block of stored values (10_state.md R10;
43_index_memory.md R154, R155), and what the named updates do to a register. -/

namespace Sys2Proof.Machine

theorem reg_setReg (s : State) (r q : RegNum) (b : Byte) :
    (s.setReg r b).reg q = if q = r then b else s.reg q := by
  simp only [State.reg, setReg_v, Vector.getElem_set, BitVec.toNat_inj]
  by_cases h : q = r
  · simp [h]
  · simp [h, Ne.symm h]

@[simp] theorem reg_setReg_same (s : State) (r : RegNum) (b : Byte) : (s.setReg r b).reg r = b := by
  simp [reg_setReg]

theorem reg_setFlag (s : State) (q : RegNum) (b : Byte) :
    (s.setFlag b).reg q = if q = vF then b else s.reg q := reg_setReg s vF q b

/-- Two states with the same register file read the same registers. -/
theorem reg_of_v {s t : State} (h : t.v = s.v) (r : RegNum) : t.reg r = s.reg r := by simp [State.reg, h]

@[simp] theorem reg_setPc (s : State) (t : Addr) (r : RegNum) : (s.setPc t).reg r = s.reg r := rfl
@[simp] theorem reg_setIndex (s : State) (t : Addr) (r : RegNum) : (s.setIndex t).reg r = s.reg r := rfl
@[simp] theorem reg_setDt (s : State) (b : Byte) (r : RegNum) : (s.setDt b).reg r = s.reg r := rfl
@[simp] theorem reg_setSt (s : State) (b : Byte) (r : RegNum) : (s.setSt b).reg r = s.reg r := rfl
@[simp] theorem reg_setDisp (s : State) (d : Display) (r : RegNum) : (s.setDisp d).reg r = s.reg r := rfl
@[simp] theorem reg_emitUpdate (s : State) (r : RegNum) : s.emitUpdate.reg r = s.reg r := rfl
@[simp] theorem reg_skipIf (s : State) (c : Bool) (r : RegNum) : (s.skipIf c).reg r = s.reg r := rfl
@[simp] theorem reg_writeByte (s : State) (a : Addr) (b : Byte) (r : RegNum) : (s.writeByte a b).reg r = s.reg r := rfl

/-- Two register files with the same sixteen reads are one. -/
theorem v_ext {s t : State} (h : ∀ r, t.reg r = s.reg r) : t.v = s.v := by
  apply Vector.ext
  intro i hi
  have := h (BitVec.ofNat 4 i)
  have hm : i % 16 = i := by omega
  simpa [State.reg, hm] using this

/-- A write of a register keeps memory. -/
theorem onlyRegs_setReg (s : State) (r : RegNum) (b : Byte) : OnlyRegs s (s.setReg r b) := ⟨rfl, fun _ => rfl⟩

theorem onlyRegs_refl (s : State) : OnlyRegs s s := ⟨rfl, fun _ => rfl⟩

/-- Register-only changes compose. -/
theorem OnlyRegs.trans {s t u : State} (h1 : OnlyRegs s t) (h2 : OnlyRegs t u) : OnlyRegs s u := by
  refine ⟨?_, fun a => (h2.2 a).trans (h1.2 a)⟩
  rw [h2.1, h1.1]

/-- The block load changes registers alone. -/
theorem onlyRegs_loadRegs (s : State) (n : Nat) : OnlyRegs s (s.loadRegs n) := by
  induction n with
  | zero => exact onlyRegs_refl s
  | succ n ih => exact ih.trans (onlyRegs_setReg _ _ _)

/-- What the block load of `n` registers leaves in each register (R155). -/
theorem reg_loadRegs (s : State) (n : Nat) (hn : n ≤ 16) (r : RegNum) :
    (s.loadRegs n).reg r = if r.toNat < n then s.readByte (s.indexed r.toNat) else s.reg r := by
  induction n with
  | zero => rfl
  | succ n ih =>
    have hr : r = BitVec.ofNat 4 n ↔ r.toNat = n := by
      constructor
      · intro h; subst h; simp; omega
      · intro h; subst h; simp
    simp only [State.loadRegs, reg_setReg, hr]
    by_cases h : r.toNat = n
    · simp [h]
    · rw [if_neg h, ih (by omega)]
      by_cases h2 : r.toNat < n
      · simp [h2, Nat.lt_succ_of_lt h2]
      · rw [if_neg h2, if_neg (by omega)]

@[simp] theorem regBlock_length (s : State) (x : RegNum) : (s.regBlock x).length = x.toNat + 1 := by
  have := x.isLt
  simp [State.regBlock]; omega

/-- The `k`-th value of the stored block is register `k` (R154). -/
theorem regBlock_get (s : State) (x : RegNum) (k : Nat) (hk : k ≤ x.toNat) :
    (s.regBlock x)[k]? = some (s.reg (BitVec.ofNat 4 k)) := by
  have := x.isLt
  have hm : k % 16 = k := by omega
  have hk16 : k < 16 := by omega
  simp [State.regBlock, State.reg, Nat.lt_succ_of_le hk, hm, hk16]

end Sys2Proof.Machine
end

