-- ==== Sys2Proof/Laws/Cycle.lean ====
section
/-! SUPPORT. The step: what the host's turn can touch, what the end of an iteration does, what enables a step, and the one
inversion lemma of `step` (40_step_and_flow.md R100; 60_exceptions.md R219, R233). -/

namespace Sys2Proof.Machine

/-! ### The host's turn (R227, R239) -/

/-- The host's turn is some moves applied to a state that differs only in the model's own record of them. -/
theorem hostTurn_eq (s : State) : ∃ (m : HostMoves) (c : Nat),
    s.hostTurn = ({ s with hostQueue := s.hostQueue.tail, hostClock := c } : State).applyHost m := by
  unfold State.hostTurn
  cases h : s.hostQueue with
  | nil => exact ⟨_, _, by simp [List.tail]; rfl⟩
  | cons m ms => exact ⟨m, s.hostClock, by simp⟩

/-- All a host's turn can change. -/
theorem hostTurn_frame (s : State) :
    s.hostTurn = { s with keys := s.hostTurn.keys, frame := ⟨s.frame.data, s.hostTurn.frame.consumed⟩,
                          ready := s.hostTurn.ready, rand := s.hostTurn.rand, hostQueue := s.hostTurn.hostQueue,
                          hostClock := s.hostTurn.hostClock } := by
  obtain ⟨m, c, h⟩ := hostTurn_eq s
  rw [h]; rfl

@[simp] theorem hostTurn_v (s : State) : s.hostTurn.v = s.v := by rw [hostTurn_frame]
@[simp] theorem hostTurn_pc (s : State) : s.hostTurn.pc = s.pc := by rw [hostTurn_frame]
@[simp] theorem hostTurn_index (s : State) : s.hostTurn.index = s.index := by rw [hostTurn_frame]
@[simp] theorem hostTurn_stack (s : State) : s.hostTurn.stack = s.stack := by rw [hostTurn_frame]
@[simp] theorem hostTurn_dt (s : State) : s.hostTurn.dt = s.dt := by rw [hostTurn_frame]
@[simp] theorem hostTurn_st (s : State) : s.hostTurn.st = s.st := by rw [hostTurn_frame]
@[simp] theorem hostTurn_tick (s : State) : s.hostTurn.tick = s.tick := by rw [hostTurn_frame]
@[simp] theorem hostTurn_disp (s : State) : s.hostTurn.disp = s.disp := by rw [hostTurn_frame]
@[simp] theorem hostTurn_halt (s : State) : s.hostTurn.halt = s.halt := by rw [hostTurn_frame]
@[simp] theorem hostTurn_mem (s : State) : s.hostTurn.mem = s.mem := by rw [hostTurn_frame]
@[simp] theorem hostTurn_buzzer (s : State) : s.hostTurn.buzzer = s.buzzer := by rw [hostTurn_frame]
@[simp] theorem hostTurn_update (s : State) : s.hostTurn.update = s.update := by rw [hostTurn_frame]
@[simp] theorem hostTurn_loaded (s : State) : s.hostTurn.loaded = s.loaded := by rw [hostTurn_frame]
@[simp] theorem hostTurn_params (s : State) : s.hostTurn.params = s.params := by rw [hostTurn_frame]
@[simp] theorem hostTurn_frame_data (s : State) : s.hostTurn.frame.data = s.frame.data := by rw [hostTurn_frame]

@[simp] theorem hostTurn_snapshot (s : State) : s.hostTurn.snapshot = s.snapshot := by rw [hostTurn_frame]

/-- `READY` never goes back (R232). -/
@[simp] theorem hostTurn_ready (s : State) (h : s.ready = true) : s.hostTurn.ready = true := by
  obtain ⟨m, c, e⟩ := hostTurn_eq s
  rw [e]; simp [h]

/-- Nor does a drain undo itself: only a publication makes the frame unconsumed (R229). -/
theorem hostTurn_consumed (s : State) (h : s.frame.consumed = true) : s.hostTurn.frame.consumed = true := by
  obtain ⟨m, c, e⟩ := hostTurn_eq s
  rw [e]; simp [h]

/-! ### A turn commutes with what touches no cell the host touches (log entry 7) -/

/-- A turn before the tick is as one after it. -/
theorem hostTurn_timerTick (s : State) : s.timerTick.hostTurn = s.hostTurn.timerTick := by
  unfold State.hostTurn
  simp only [timerTick_hostQueue, timerTick_hostClock]
  cases s.hostQueue <;> simp [State.timerTick, State.tickDue, State.applyHost, State.publishKeys, State.drainFrame,
    State.signalReady, State.supplyRandom]

/-- A turn after the buzzer write is as one before it. -/
theorem hostTurn_writeBuzzer (s : State) : s.writeBuzzer.hostTurn = s.hostTurn.writeBuzzer := by
  unfold State.hostTurn
  simp only [writeBuzzer_hostQueue, writeBuzzer_hostClock]
  cases s.hostQueue <;> rfl

/-! ### The state an instruction is executed on (R100 phases 1 to 5) -/

/-- All that opening a step can change: the step's inputs and output, and what the host's two turns touch. -/
theorem openStep_frame (s : State) :
    s.openStep = { s with update := none, keys := s.openStep.keys,
                          frame := ⟨s.frame.data, s.openStep.frame.consumed⟩, ready := s.openStep.ready,
                          rand := s.openStep.rand, snapshot := s.hostTurn.keys, hostQueue := s.openStep.hostQueue,
                          hostClock := s.openStep.hostClock } := by
  have hd : s.hostTurn.readKeys.hostTurn.frame.data = s.frame.data := by simp
  simp only [State.openStep]
  rw [← hd, hostTurn_frame s.hostTurn.readKeys]
  simp

@[simp] theorem openStep_ready (s : State) (h : s.ready = true) : s.openStep.ready = true :=
  hostTurn_ready _ (hostTurn_ready s h)

theorem openStep_consumed (s : State) (h : s.frame.consumed = true) : s.openStep.frame.consumed = true :=
  hostTurn_consumed _ (hostTurn_consumed s h)

@[simp] theorem openStep_v (s : State) : s.openStep.v = s.v := by rw [openStep_frame]
@[simp] theorem openStep_pc (s : State) : s.openStep.pc = s.pc := by rw [openStep_frame]
@[simp] theorem openStep_index (s : State) : s.openStep.index = s.index := by rw [openStep_frame]
@[simp] theorem openStep_stack (s : State) : s.openStep.stack = s.stack := by rw [openStep_frame]
@[simp] theorem openStep_dt (s : State) : s.openStep.dt = s.dt := by rw [openStep_frame]
@[simp] theorem openStep_st (s : State) : s.openStep.st = s.st := by rw [openStep_frame]
@[simp] theorem openStep_tick (s : State) : s.openStep.tick = s.tick := by rw [openStep_frame]
@[simp] theorem openStep_disp (s : State) : s.openStep.disp = s.disp := by rw [openStep_frame]
@[simp] theorem openStep_halt (s : State) : s.openStep.halt = s.halt := by rw [openStep_frame]
@[simp] theorem openStep_mem (s : State) : s.openStep.mem = s.mem := by rw [openStep_frame]
@[simp] theorem openStep_buzzer (s : State) : s.openStep.buzzer = s.buzzer := by rw [openStep_frame]
@[simp] theorem openStep_loaded (s : State) : s.openStep.loaded = s.loaded := by rw [openStep_frame]
@[simp] theorem openStep_update (s : State) : s.openStep.update = none := rfl
@[simp] theorem openStep_snapshot (s : State) : s.openStep.snapshot = s.hostTurn.keys := by rw [openStep_frame]

@[simp] theorem openStep_frame_data (s : State) : s.openStep.frame.data = s.frame.data := by rw [openStep_frame]

/-- The state the execute phase starts from: `pc` advanced, no update yet, the snapshot read, the host's turns taken. -/
theorem prepared_eq (s : State) :
    s.openStep.advance =
      { s with pc := s.pc + 2, update := none, keys := s.openStep.keys,
               frame := ⟨s.frame.data, s.openStep.frame.consumed⟩, ready := s.openStep.ready, rand := s.openStep.rand,
               snapshot := s.hostTurn.keys, hostQueue := s.openStep.hostQueue, hostClock := s.openStep.hostClock } := by
  rw [State.advance, openStep_frame]; rfl

/-- The opcode fetched is the one in memory at `pc` (R57: what the last step stored). -/
@[simp] theorem openStep_fetchWord (s : State) : s.openStep.fetchWord = s.fetchWord := by rw [openStep_frame]; rfl

@[simp] theorem openStep_params (s : State) : s.openStep.params = s.params := by rw [openStep_frame]

/-! ### What enables a step -/

theorem gate_enabled {s : State} : s.gate = .enabled ↔ s.Enabled := by
  unfold State.gate
  constructor
  · intro h
    cases hh : s.halt with
    | halted c => simp [hh] at h
    | running =>
      by_cases hp : s.params.wellFormed = true <;> by_cases hl : s.loaded = true <;> by_cases hr : s.ready = true <;>
        simp [hh, hp, hl, hr] at h
      exact ⟨hh, hp, hl, hr⟩
  · rintro ⟨h1, h2, h3, h4⟩
    simp [h1, h2, h3, h4]

theorem gate_waiting {s : State} :
    s.gate = .waiting ↔ s.halt = .running ∧ s.params.wellFormed = true ∧ s.loaded = true ∧ s.ready = false := by
  unfold State.gate
  constructor
  · intro h
    cases hh : s.halt with
    | halted c => simp [hh] at h
    | running =>
      by_cases hp : s.params.wellFormed = true <;> by_cases hl : s.loaded = true <;> by_cases hr : s.ready = true <;>
        simp_all
  · rintro ⟨h1, h2, h3, h4⟩
    simp [h1, h2, h3, h4]

/-! ### The end of an iteration (R100 phases 7 and 8, R233) -/

theorem endStep_running {t : State} (h : t.halt = .running) :
    t.endStep = t.timerTick.publishUpdate.hostTurn.writeBuzzer := by simp [State.endStep, h]

theorem endStep_halted {t : State} {c : FatalCause} (h : t.halt = .halted c) : t.endStep = t := by
  simp [State.endStep, h]

theorem endStep_eq_ite (t : State) :
    t.endStep = if t.halt = .running then t.timerTick.publishUpdate.hostTurn.writeBuzzer else t := by
  cases h : t.halt with
  | running => simp [endStep_running h]
  | halted c => simp [endStep_halted h]

/-- The timers and the tick counter at the end of an iteration are those of the tick. -/
theorem endStep_timers {t : State} (h : t.halt = .running) :
    t.endStep.tick = t.timerTick.tick ∧ t.endStep.dt = t.timerTick.dt ∧ t.endStep.st = t.timerTick.st ∧
      t.endStep.buzzer = t.endStep.buzzerActive := by
  rw [endStep_running h]; exact ⟨by simp, by simp, by simp, rfl⟩

/-- Where nothing is published the frame's data stays, and a consumed frame stays consumed. -/
theorem endStep_frame_of_none {t : State} (hu : t.update = none) :
    t.endStep.frame.data = t.frame.data ∧ (t.frame.consumed = true → t.endStep.frame.consumed = true) := by
  rw [endStep_eq_ite]
  split
  · simp only [writeBuzzer_frame, hostTurn_frame_data]
    exact ⟨by simp [State.publishUpdate, hu], fun h => hostTurn_consumed _ (by simp [State.publishUpdate, hu, h])⟩
  · exact ⟨rfl, id⟩

/-- Where the step returned an update on a core that goes on, the frame's data is that update. -/
theorem endStep_frame_of_some {t : State} {f : Display} (h : t.halt = .running) (hu : t.update = some f) :
    t.endStep.frame.data = f := by
  rw [endStep_running h]; simp [State.publishUpdate, hu]

/-! The end of an iteration leaves these as they are, halted or not. -/

@[simp] theorem endStep_v (t : State) : t.endStep.v = t.v := by rw [endStep_eq_ite]; split <;> simp
@[simp] theorem endStep_pc (t : State) : t.endStep.pc = t.pc := by rw [endStep_eq_ite]; split <;> simp
@[simp] theorem endStep_index (t : State) : t.endStep.index = t.index := by rw [endStep_eq_ite]; split <;> simp
@[simp] theorem endStep_stack (t : State) : t.endStep.stack = t.stack := by rw [endStep_eq_ite]; split <;> simp
@[simp] theorem endStep_disp (t : State) : t.endStep.disp = t.disp := by rw [endStep_eq_ite]; split <;> simp
@[simp] theorem endStep_halt (t : State) : t.endStep.halt = t.halt := by rw [endStep_eq_ite]; split <;> simp
@[simp] theorem endStep_mem (t : State) : t.endStep.mem = t.mem := by rw [endStep_eq_ite]; split <;> simp
@[simp] theorem endStep_update (t : State) : t.endStep.update = t.update := by rw [endStep_eq_ite]; split <;> simp
@[simp] theorem endStep_snapshot (t : State) : t.endStep.snapshot = t.snapshot := by rw [endStep_eq_ite]; split <;> simp
@[simp] theorem endStep_loaded (t : State) : t.endStep.loaded = t.loaded := by rw [endStep_eq_ite]; split <;> simp
@[simp] theorem endStep_params (t : State) : t.endStep.params = t.params := by rw [endStep_eq_ite]; split <;> simp

@[simp] theorem closeStep_next (t : State) : closeStep (.next t) = .next t.endStep := rfl

/-- An end of iteration that answers a next state ends a next state. -/
theorem closeStep_eq_next {r : Result} {t : State} (h : closeStep r = .next t) : ∃ u, r = .next u ∧ t = u.endStep := by
  cases r with
  | next u => exact ⟨u, rfl, by simpa using h.symm⟩
  | fault f => simp [closeStep] at h
  | refused f => simp [closeStep] at h

/-! ### The step, said once -/

/-- The execute phase of an enabled step: a NOP word, an instruction, or an illegal opcode. -/
inductive Executes (s : State) : State → Prop where
  | nop : s.fetchWord ∈ s.params.nopSet → Executes s s.openStep.advance
  | instr (i : Instr) (u : State) : s.fetchWord ∉ s.params.nopSet → decode s.fetchWord = some i →
      exec i s.openStep.advance = .next u → Executes s u
  | illegal : s.fetchWord ∉ s.params.nopSet → decode s.fetchWord = none →
      Executes s { s.openStep.advance with halt := .halted (.decodeError s.fetchWord) }

/-- All that a step which answers a next state can have done: a host's turn while the agent waits, or one iteration. -/
theorem step_next_cases {s t : State} (h : step s = .next t) :
    (s.gate = .waiting ∧ t = s.hostTurn) ∨ (s.Enabled ∧ ∃ u, Executes s u ∧ t = u.endStep) := by
  unfold step at h
  cases hg : s.gate with
  | halted c => simp [hg] at h
  | misconfigured => simp [hg] at h
  | notLoaded => simp [hg] at h
  | waiting => left; simp [hg] at h; exact ⟨rfl, h.symm⟩
  | enabled =>
    right
    refine ⟨gate_enabled.1 hg, ?_⟩
    simp only [hg, openStep_fetchWord, openStep_params, decodeWord] at h
    by_cases hn : s.fetchWord ∈ s.params.nopSet
    · simp only [List.contains_iff_mem.2 hn, if_true, execNop, closeStep_next] at h
      exact ⟨_, .nop hn, by simpa using h.symm⟩
    · have hc : s.params.nopSet.contains s.fetchWord = false := by simpa using hn
      simp only [hc, Bool.false_eq_true, if_false] at h
      cases hd : decode s.fetchWord with
      | some i =>
        simp only [hd] at h
        obtain ⟨u, hu, rfl⟩ := closeStep_eq_next h
        exact ⟨u, .instr i u hn hd hu, rfl⟩
      | none =>
        simp only [hd, raiseFatal, closeStep_next] at h
        exact ⟨_, .illegal hn hd, by simpa using h.symm⟩

/-- An enabled step whose execute phase answers `u` answers the end of the iteration from `u`. -/
theorem step_of_executes {s u : State} (hs : s.Enabled) (h : Executes s u) : step s = .next u.endStep := by
  unfold step
  rw [gate_enabled.2 hs]
  simp only [openStep_fetchWord, openStep_params, decodeWord]
  cases h with
  | nop hn => simp only [List.contains_iff_mem.2 hn, if_true, execNop, closeStep_next]
  | instr i _ hn hd hu =>
    have hc : s.params.nopSet.contains s.fetchWord = false := by simpa using hn
    simp only [hc, Bool.false_eq_true, if_false, hd, hu, closeStep_next]
  | illegal hn hd =>
    have hc : s.params.nopSet.contains s.fetchWord = false := by simpa using hn
    simp only [hc, Bool.false_eq_true, if_false, hd, raiseFatal, closeStep_next]

end Sys2Proof.Machine
end

