-- ==== Sys2Proof/Laws/Decode.lean ====
section
/-! SUPPORT. The fields of a built opcode, and an opcode rebuilt from its fields (30_encoding.md R71, R72). -/

namespace Sys2Proof

/-! ### The fields of a built opcode -/

@[simp] theorem majorOf_wordNNN (m : Nibble) (nnn : Addr) : majorOf (wordNNN m nnn) = m := by
  unfold majorOf wordNNN
  rw [BitVec.extractLsb'_append_eq_of_le] <;> simp

@[simp] theorem nnnOf_wordNNN (m : Nibble) (nnn : Addr) : nnnOf (wordNNN m nnn) = nnn := by
  unfold nnnOf wordNNN
  rw [BitVec.extractLsb'_append_eq_of_add_le] <;> simp

@[simp] theorem majorOf_wordXKK (m : Nibble) (x : RegNum) (kk : Byte) : majorOf (wordXKK m x kk) = m := by
  unfold majorOf wordXKK
  rw [BitVec.extractLsb'_append_eq_of_le] <;> simp

@[simp] theorem xOf_wordXKK (m : Nibble) (x : RegNum) (kk : Byte) : xOf (wordXKK m x kk) = x := by
  unfold xOf wordXKK
  rw [BitVec.extractLsb'_append_eq_of_add_le (by omega), BitVec.extractLsb'_append_eq_of_le (by omega)]
  simp

@[simp] theorem kkOf_wordXKK (m : Nibble) (x : RegNum) (kk : Byte) : kkOf (wordXKK m x kk) = kk := by
  unfold kkOf wordXKK
  rw [BitVec.extractLsb'_append_eq_of_add_le (by omega), BitVec.extractLsb'_append_eq_of_add_le (by omega)]
  simp

@[simp] theorem majorOf_wordXYN (m : Nibble) (x y : RegNum) (n : Nibble) : majorOf (wordXYN m x y n) = m := by
  unfold majorOf wordXYN
  rw [BitVec.extractLsb'_append_eq_of_le] <;> simp

@[simp] theorem xOf_wordXYN (m : Nibble) (x y : RegNum) (n : Nibble) : xOf (wordXYN m x y n) = x := by
  unfold xOf wordXYN
  rw [BitVec.extractLsb'_append_eq_of_add_le (by omega), BitVec.extractLsb'_append_eq_of_le (by omega)]
  simp

@[simp] theorem yOf_wordXYN (m : Nibble) (x y : RegNum) (n : Nibble) : yOf (wordXYN m x y n) = y := by
  unfold yOf wordXYN
  rw [BitVec.extractLsb'_append_eq_of_add_le (by omega), BitVec.extractLsb'_append_eq_of_add_le (by omega),
    BitVec.extractLsb'_append_eq_of_le (by omega)]
  simp

@[simp] theorem nOf_wordXYN (m : Nibble) (x y : RegNum) (n : Nibble) : nOf (wordXYN m x y n) = n := by
  unfold nOf wordXYN
  rw [BitVec.extractLsb'_append_eq_of_add_le (by omega), BitVec.extractLsb'_append_eq_of_add_le (by omega),
    BitVec.extractLsb'_append_eq_of_add_le (by omega)]
  simp

/-! ### An opcode is its fields -/

theorem wordNNN_fields (op : Word) : wordNNN (majorOf op) (nnnOf op) = op := by
  unfold wordNNN majorOf nnnOf
  rw [BitVec.extractLsb'_append_extractLsb'_eq_extractLsb' (by omega)]
  simp

theorem nnn_fields (op : Word) : (xOf op ++ kkOf op : Addr) = nnnOf op := by
  unfold xOf kkOf nnnOf
  rw [BitVec.extractLsb'_append_extractLsb'_eq_extractLsb' (by omega)]

theorem kk_fields (op : Word) : (yOf op ++ nOf op : Byte) = kkOf op := by
  unfold yOf kkOf nOf
  rw [BitVec.extractLsb'_append_extractLsb'_eq_extractLsb' (by omega)]

theorem wordXKK_fields (op : Word) : wordXKK (majorOf op) (xOf op) (kkOf op) = op := by
  unfold wordXKK
  rw [nnn_fields]
  exact wordNNN_fields op

theorem wordXYN_fields (op : Word) : wordXYN (majorOf op) (xOf op) (yOf op) (nOf op) = op := by
  unfold wordXYN
  rw [kk_fields]
  exact wordXKK_fields op

/-- The last major digit, by elimination of the other fifteen. -/
theorem nibble_eq_F {m : Nibble} (h0 : m ≠ 0x0#4) (h1 : m ≠ 0x1#4) (h2 : m ≠ 0x2#4) (h3 : m ≠ 0x3#4) (h4 : m ≠ 0x4#4)
    (h5 : m ≠ 0x5#4) (h6 : m ≠ 0x6#4) (h7 : m ≠ 0x7#4) (h8 : m ≠ 0x8#4) (h9 : m ≠ 0x9#4) (hA : m ≠ 0xA#4)
    (hB : m ≠ 0xB#4) (hC : m ≠ 0xC#4) (hD : m ≠ 0xD#4) (hE : m ≠ 0xE#4) : m = 0xF#4 := by
  simp only [ne_eq, ← BitVec.toNat_inj, BitVec.toNat_ofNat] at *
  have := m.isLt
  omega

/-! ### The masks of the opcode table -/

/-- The mask of a row that tests the major digit. -/
theorem mask_major (op : Word) : (op &&& 0xF000#16) = wordNNN (majorOf op) 0 := by
  apply BitVec.eq_of_getLsbD_eq
  intro i hi
  unfold wordNNN majorOf
  rw [BitVec.getLsbD_append, BitVec.getLsbD_and]
  interval_cases i <;> simp

/-- The mask of a row that tests the major digit and the low nibble. -/
theorem mask_major_low (op : Word) : (op &&& 0xF00F#16) = wordXYN (majorOf op) 0 0 (nOf op) := by
  apply BitVec.eq_of_getLsbD_eq
  intro i hi
  unfold wordXYN majorOf nOf
  rw [BitVec.getLsbD_append, BitVec.getLsbD_append, BitVec.getLsbD_append, BitVec.getLsbD_and]
  interval_cases i <;> simp

/-- The mask of a row that tests the major digit and the low byte. -/
theorem mask_major_byte (op : Word) : (op &&& 0xF0FF#16) = wordXKK (majorOf op) 0 (kkOf op) := by
  apply BitVec.eq_of_getLsbD_eq
  intro i hi
  unfold wordXKK majorOf kkOf
  rw [BitVec.getLsbD_append, BitVec.getLsbD_append, BitVec.getLsbD_and]
  interval_cases i <;> simp

/-- The mask of a row that tests the whole word. -/
theorem mask_all (op : Word) : (op &&& 0xFFFF#16) = op := by
  have : (0xFFFF#16) = BitVec.allOnes 16 := by decide
  rw [this, BitVec.and_allOnes]

/-! ### Bytes -/

/-- The two bytes of an opcode, high byte first, are that opcode (R43). -/
theorem wordOfBytes_bytes (op : Word) : wordOfBytes (op.extractLsb' 8 8) (op.extractLsb' 0 8) = op := by
  unfold wordOfBytes
  rw [BitVec.extractLsb'_append_extractLsb'_eq_extractLsb' (by omega)]
  simp

/-- The opcode of two bytes as a number (R43). -/
theorem wordOfBytes_toNat (hi lo : Byte) : (wordOfBytes hi lo).toNat = 256 * hi.toNat + lo.toNat := by
  unfold wordOfBytes
  have h : (hi ++ lo : BitVec (8 + 8)).toNat = hi.toNat <<< 8 ||| lo.toNat := BitVec.toNat_append hi lo
  rw [← Nat.shiftLeft_add_eq_or_of_lt lo.isLt, Nat.shiftLeft_eq] at h
  simpa [Nat.mul_comm] using h

/-- The decoder on the bytes of an opcode reads that opcode and leaves the rest. -/
theorem decodeBytes_word (op : Word) (rest : List Byte) :
    decodeBytes (bytesOfWord op ++ rest) =
      match decode op with
      | some i => .ok (i, rest)
      | none => .error (.unassigned op) := by
  cases h : decode op <;> simp [bytesOfWord, decodeBytes, wordOfBytes_bytes, h]

end Sys2Proof
end

