-- ==== Sys2Proof/Laws/Display.lean ====
section
/-! SUPPORT. The display: a pixel after a pixel is set, and what the sprite loops leave at every pixel and in the collision
flag (44_display.md R172), said once for `plot`, `plotBits`, `plotRows`. -/

namespace Sys2Proof.Machine

theorem pixelAt_inside (d : Display) (x y : Nat) (hx : x < 64) (hy : y < 32) : pixelAt d x y = d[y][x] := by
  simp [pixelAt, hx, hy]

theorem pixelAt_setPixel (d : Display) (x y px py : Nat) (b : Bool) (hx : x < 64) (hy : y < 32) :
    pixelAt (setPixel d x y b) px py = if px = x ∧ py = y then b else pixelAt d px py := by
  simp only [setPixel, Vector.getElem?_eq_getElem hy]
  unfold pixelAt
  by_cases hpy : py = y
  · subst hpy
    simp only [Vector.getElem?_eq_getElem hy]
    by_cases hpx : px = x
    · subst hpx; simp [hx]
    · simp [hpx, Ne.symm hpx]
  · simp [hpy, Ne.symm hpy]

/-- Two displays with the same pixels are one. -/
theorem display_ext {d e : Display} (h : ∀ x y, x < 64 → y < 32 → pixelAt d x y = pixelAt e x y) : d = e := by
  apply Vector.ext
  intro y hy
  apply Vector.ext
  intro x hx
  have := h x y hx hy
  rwa [pixelAt_inside _ _ _ hx hy, pixelAt_inside _ _ _ hx hy] at this

@[simp] theorem pixelAt_blank (x y : Nat) : pixelAt blankDisplay x y = false := by
  unfold pixelAt blankDisplay
  by_cases hy : y < 32
  · by_cases hx : x < 64 <;> simp [hy, hx]
  · simp [hy]

/-- One sprite pixel: clipped, or XORed onto its place. -/
theorem plot_disp (c : Canvas) (x y : Nat) (b : Bool) (px py : Nat) (hpx : px < 64) (hpy : py < 32) :
    pixelAt (c.plot x y b).disp px py = (pixelAt c.disp px py ^^ (decide (px = x ∧ py = y) && b)) := by
  unfold Canvas.plot
  split
  · have : ¬(px = x ∧ py = y) := by omega
    simp [this]
  · rw [pixelAt_setPixel _ _ _ _ _ _ (by omega) (by omega)]
    split
    · next h => simp [h.1, h.2]
    · next h => simp [h]

/-- One sprite pixel: the collision flag is sticky and rises when both pixels are on and visible. -/
theorem plot_hit (c : Canvas) (x y : Nat) (b : Bool) :
    (c.plot x y b).hit = (c.hit || (decide (x < 64 ∧ y < 32) && b && pixelAt c.disp x y)) := by
  unfold Canvas.plot
  split
  · have : ¬(x < 64 ∧ y < 32) := by omega
    simp [this]
  · have : x < 64 ∧ y < 32 := by omega
    simp [this]

/-- One row of a sprite: what it leaves at every visible pixel. -/
theorem plotBits_disp (c : Canvas) (x0 y : Nat) (b : Byte) (k px py : Nat) (hpx : px < 64) (hpy : py < 32) :
    pixelAt (c.plotBits x0 y b k).disp px py =
      (pixelAt c.disp px py ^^ (decide (py = y ∧ x0 ≤ px ∧ px < x0 + k) && b.getLsbD (7 - (px - x0)))) := by
  induction k with
  | zero =>
    have : ¬(py = y ∧ x0 ≤ px ∧ px < x0 + 0) := by omega
    rw [decide_eq_false this, Bool.false_and, Bool.xor_false]; rfl
  | succ k ih =>
    rw [Canvas.plotBits, plot_disp _ _ _ _ _ _ hpx hpy, ih]
    by_cases h : px = x0 + k ∧ py = y
    · obtain ⟨rfl, rfl⟩ := h
      have h2 : ¬(x0 + k < x0 + k) := by omega
      simp
    · have : (py = y ∧ x0 ≤ px ∧ px < x0 + (k + 1)) ↔ (py = y ∧ x0 ≤ px ∧ px < x0 + k) := by omega
      simp [h, this]

/-- One row of a sprite: the collision flag. -/
theorem plotBits_hit (c : Canvas) (x0 y : Nat) (b : Byte) (k : Nat) :
    (c.plotBits x0 y b k).hit = true ↔
      (c.hit = true ∨ ∃ px, px < 64 ∧ y < 32 ∧ x0 ≤ px ∧ px < x0 + k ∧ b.getLsbD (7 - (px - x0)) = true ∧
        pixelAt c.disp px y = true) := by
  induction k with
  | zero =>
    simp only [Canvas.plotBits]
    constructor
    · exact Or.inl
    · rintro (h | ⟨px, -, -, h1, h2, -⟩)
      · exact h
      · omega
  | succ k ih =>
    rw [Canvas.plotBits, plot_hit, Bool.or_eq_true, ih]
    constructor
    · rintro ((h | ⟨px, h1, h2, h3, h4, h5⟩) | h)
      · exact Or.inl h
      · exact Or.inr ⟨px, h1, h2, h3, by omega, h5⟩
      · simp only [Bool.and_eq_true, decide_eq_true_eq] at h
        obtain ⟨⟨⟨hx, hy⟩, hb⟩, hp⟩ := h
        rw [plotBits_disp _ _ _ _ _ _ _ hx hy] at hp
        have h2 : ¬(x0 + k < x0 + k) := by omega
        refine Or.inr ⟨x0 + k, hx, hy, by omega, by omega, ?_, by simpa using hp⟩
        rwa [Nat.add_sub_cancel_left]
    · rintro (h | ⟨px, h1, h2, h3, h4, h5, h6⟩)
      · exact Or.inl (Or.inl h)
      · by_cases hk : px < x0 + k
        · exact Or.inl (Or.inr ⟨px, h1, h2, h3, hk, h5, h6⟩)
        · right
          have : px = x0 + k := by omega
          subst this
          rw [Nat.add_sub_cancel_left] at h5
          simp [h1, h2, h5, plotBits_disp, h6]

/-- A sprite: what its rows leave at every visible pixel. -/
theorem plotRows_disp (c : Canvas) (x0 y0 : Nat) (row : Nat → Byte) (n px py : Nat) (hpx : px < 64) (hpy : py < 32) :
    pixelAt (c.plotRows x0 y0 row n).disp px py = (pixelAt c.disp px py ^^ spritePixel x0 y0 n row px py) := by
  induction n with
  | zero =>
    have : ¬(x0 ≤ px ∧ px < x0 + 8 ∧ y0 ≤ py ∧ py < y0 + 0) := by omega
    rw [spritePixel, decide_eq_false this, Bool.false_and, Bool.xor_false]; rfl
  | succ n ih =>
    rw [Canvas.plotRows, plotBits_disp _ _ _ _ _ _ _ hpx hpy, ih]
    unfold spritePixel
    by_cases h : py = y0 + n
    · subst h
      simp
    · have h2 : (x0 ≤ px ∧ px < x0 + 8 ∧ y0 ≤ py ∧ py < y0 + (n + 1)) ↔
          (x0 ≤ px ∧ px < x0 + 8 ∧ y0 ≤ py ∧ py < y0 + n) := by omega
      simp [h, h2]

/-- A sprite: the collision flag rises exactly when a visible pixel was on before the draw and takes a 1 bit. -/
theorem plotRows_hit (c : Canvas) (x0 y0 : Nat) (row : Nat → Byte) (n : Nat) :
    (c.plotRows x0 y0 row n).hit = true ↔
      (c.hit = true ∨ ∃ px py, px < 64 ∧ py < 32 ∧ spritePixel x0 y0 n row px py = true ∧
        pixelAt c.disp px py = true) := by
  induction n with
  | zero =>
    simp only [Canvas.plotRows]
    constructor
    · exact Or.inl
    · rintro (h | ⟨px, py, -, -, h, -⟩)
      · exact h
      · simp only [spritePixel, Bool.and_eq_true, decide_eq_true_eq] at h; omega
  | succ n ih =>
    rw [Canvas.plotRows, plotBits_hit, ih]
    constructor
    · rintro ((h | ⟨px, py, h1, h2, h3, h4⟩) | ⟨px, h1, h2, h3, h4, h5, h6⟩)
      · exact Or.inl h
      · refine Or.inr ⟨px, py, h1, h2, ?_, h4⟩
        simp only [spritePixel, Bool.and_eq_true, decide_eq_true_eq] at h3 ⊢
        exact ⟨by omega, h3.2⟩
      · rw [plotRows_disp _ _ _ _ _ _ _ h1 h2] at h6
        have hs : spritePixel x0 y0 n row px (y0 + n) = false := by
          simp [spritePixel]
        rw [hs, Bool.xor_false] at h6
        refine Or.inr ⟨px, y0 + n, h1, h2, ?_, h6⟩
        simp [spritePixel, h3, h4, h5]
    · rintro (h | ⟨px, py, h1, h2, h3, h4⟩)
      · exact Or.inl (Or.inl h)
      · simp only [spritePixel, Bool.and_eq_true, decide_eq_true_eq] at h3
        by_cases hn : py < y0 + n
        · refine Or.inl (Or.inr ⟨px, py, h1, h2, ?_, h4⟩)
          simp only [spritePixel, Bool.and_eq_true, decide_eq_true_eq]
          exact ⟨by omega, h3.2⟩
        · have hpy : py = y0 + n := by omega
          subst hpy
          refine Or.inr ⟨px, h1, h2, h3.1.1, h3.1.2.1, ?_, ?_⟩
          · simpa using h3.2
          · rw [plotRows_disp _ _ _ _ _ _ _ h1 h2]
            have hs : spritePixel x0 y0 n row px (y0 + n) = false := by simp [spritePixel]
            rw [hs, Bool.xor_false]; exact h4

/-- The whole draw of `Dxyn` at a visible pixel (R172). -/
theorem drawn_disp (s : State) (x y : RegNum) (n : Nibble) (px py : Nat) (hpx : px < 64) (hpy : py < 32) :
    pixelAt (s.drawn x y n).disp px py = (pixelAt s.disp px py ^^ s.spriteOn x y n px py) :=
  plotRows_disp _ _ _ _ _ _ _ hpx hpy

/-- The collision flag of `Dxyn` (R172). -/
theorem drawn_hit (s : State) (x y : RegNum) (n : Nibble) : (s.drawn x y n).hit = true ↔ s.Collides x y n := by
  unfold State.drawn State.Collides State.spriteOn
  rw [plotRows_hit]
  simp [State.indexed]

end Sys2Proof.Machine
end

