-- ==== Sys2Proof/Laws/Exec.lean ====
section
/-! SUPPORT. The shared operations of the execute phase, each said once: the skip, the fatal mechanism, the key test, the
lowest key, the shift, the saturating decrement, the glyph address; and the inversion lemma of `exec`. -/

namespace Sys2Proof.Machine

/-! ### The skip (41_skip.md) -/

/-- A skip changes `pc` alone. -/
theorem onlyPc_skipIf (s : State) (c : Bool) : OnlyPc s (s.skipIf c) := ⟨rfl, fun _ => rfl⟩

theorem onlyPc_setPc (s : State) (a : Addr) : OnlyPc s (s.setPc a) := ⟨rfl, fun _ => rfl⟩

@[simp] theorem skipIf_pc_eq (s : State) (c : Bool) : (s.skipIf c).pc = if c then s.pc + 2 else s.pc := rfl

/-! ### The fatal mechanism (R210) -/

/-- A fatal condition answers the state with the halt latch set, and no other change. -/
theorem raiseFatal_next (c : FatalCause) (s : State) :
    ∃ t, raiseFatal c s = .next t ∧ t.halt = .halted c ∧ OnlyHalt s t := ⟨_, rfl, rfl, rfl, fun _ => rfl⟩

/-! ### The stack (R16, R17) -/

/-- Within a bound, a stack is full from the bound on. -/
theorem stackFull_of_bound {s : State} {d : Nat} (h : s.params.stackDepth = some d) :
    s.stackFull = decide (d ≤ s.stack.length) := by simp [State.stackFull, h]

/-- A stack below every bound is not full. -/
theorem stackFull_eq_false {s : State} (h : ∀ d, s.params.stackDepth = some d → s.stack.length < d) :
    s.stackFull = false := by
  cases hd : s.params.stackDepth with
  | none => simp [State.stackFull, hd]
  | some d => simpa [State.stackFull, hd] using h d hd

/-! ### Keys (R190 to R192) -/

theorem keyAt_inside {s : State} {k : Byte} (h : k.toNat < 16) : s.keyAt k = some s.snapshot[k.toNat] := by
  simp [State.keyAt, h]

theorem keyAt_outside {s : State} {k : Byte} (h : 15 < k.toNat) : s.keyAt k = none := by
  simp [State.keyAt, Nat.not_lt.2 h]

/-- The key test answers the skip or the fatal condition. -/
theorem skipOnKey_cases (s : State) (x : RegNum) (wanted : Bool) :
    (∃ b, s.keyAt (s.reg x) = some b ∧ s.skipOnKey x wanted = .next (s.skipIf (b == wanted))) ∨
    (s.keyAt (s.reg x) = none ∧
      s.skipOnKey x wanted = raiseFatal (.keyIndexOutOfRange (s.reg x)) s) := by
  unfold State.skipOnKey
  cases h : s.keyAt (s.reg x) with
  | none => exact .inr ⟨rfl, rfl⟩
  | some b => exact .inl ⟨b, rfl, rfl⟩

/-- No key is pressed exactly when there is no lowest one. -/
theorem lowestKey_none {ks : Keys} : lowestKey ks = none ↔ ∀ i, (h : i < 16) → ks[i] = false := by
  unfold lowestKey
  rw [List.find?_eq_none]
  constructor
  · intro h i hi
    have := h i (by simpa using hi)
    simpa [hi] using this
  · intro h i hi
    have hi' : i < 16 := by simpa using hi
    simp [hi', h i hi']

/-! ### Shifts (R138, R140) -/

/-- What the two writes of a shift leave: the shifted value where the destination is not VF, the flag in VF, and, where
the destination is VF, the shift of the flag just written. -/
theorem reg_shiftReg (s : State) (x : RegNum) (flag shift : Byte → Byte) (r : RegNum) :
    (s.shiftReg x flag shift).reg r =
      if r = x then shift (if x = vF then flag (s.reg x) else s.reg x)
      else if r = vF then flag (s.reg x) else s.reg r := by
  simp only [State.shiftReg, reg_setReg, reg_setFlag]

theorem onlyRegs_shiftReg (s : State) (x : RegNum) (flag shift : Byte → Byte) :
    OnlyRegs s (s.shiftReg x flag shift) := (onlyRegs_setReg _ _ _).trans (onlyRegs_setReg _ _ _)

/-! ### Timers (R18, R219) -/

/-- The saturating decrement is subtraction of naturals. -/
@[simp] theorem decTimer_toNat (b : Byte) : (decTimer b).toNat = b.toNat - 1 := by
  unfold decTimer
  split
  · next h => subst h; rfl
  · next h =>
    have h0 : b.toNat ≠ 0 := fun e => h (BitVec.eq_of_toNat_eq e)
    have := b.isLt
    simp [BitVec.toNat_sub]; omega

/-! ### Operands -/

/-- The glyph address never wraps (R152). -/
theorem glyphAddr_toNat (b : Byte) : (glyphAddr b).toNat = 0x050 + 5 * b.toNat := by
  have := b.isLt
  simp [glyphAddr, zext12, BitVec.toNat_add, BitVec.toNat_mul, BitVec.toNat_setWidth]; omega

@[simp] theorem zext12_toNat (b : Byte) : (zext12 b).toNat = b.toNat := by
  have := b.isLt
  simp [zext12, BitVec.toNat_setWidth]; omega

/-! ### Channel actions commute (60_exceptions.md R228; log entry 7) -/

/-- A key snapshot published during an iteration is as one published at its end. -/
theorem publishKeys_publishUpdate (s : State) (k : Option Keys) :
    (s.publishKeys k).publishUpdate = s.publishUpdate.publishKeys k := rfl

theorem publishKeys_writeBuzzer (s : State) (k : Option Keys) :
    (s.publishKeys k).writeBuzzer = s.writeBuzzer.publishKeys k := rfl

theorem publishKeys_timerTick (s : State) (k : Option Keys) :
    (s.publishKeys k).timerTick = s.timerTick.publishKeys k := rfl

/-- A drain before the buzzer write is as one after it. -/
theorem drainFrame_writeBuzzer (s : State) (b : Bool) :
    (s.drainFrame b).writeBuzzer = s.writeBuzzer.drainFrame b := rfl

theorem drainFrame_timerTick (s : State) (b : Bool) : (s.drainFrame b).timerTick = s.timerTick.drainFrame b := rfl

/-- Where nothing is published, a drain before is as one after. -/
theorem drainFrame_publishUpdate (s : State) (b : Bool) (h : s.update = none) :
    (s.drainFrame b).publishUpdate = s.publishUpdate.drainFrame b := by
  simp [State.publishUpdate, State.drainFrame, h]

/-- A drain leaves the data of the frame cell. -/
@[simp] theorem drainFrame_data (s : State) (b : Bool) : (s.drainFrame b).frame.data = s.frame.data := rfl

/-! ### Updates that commute with the block operations -/

/-- A run of writes commutes with a change that each write commutes with. -/
theorem writeBytes_congr (f : State → State) (hf : ∀ s a b, (f s).writeByte a b = f (s.writeByte a b)) (s : State)
    (a : Addr) (bs : List Byte) : (f s).writeBytes a bs = f (s.writeBytes a bs) := by
  induction bs generalizing s a with
  | nil => rfl
  | cons b bs ih => simp only [State.writeBytes]; rw [hf, ih]

/-- The block load commutes with a change that touches neither registers, nor `I`, nor memory. -/
theorem loadRegs_congr (f : State → State) (hf : ∀ s r b, (f s).setReg r b = f (s.setReg r b))
    (hr : ∀ s, (f s).readByte = s.readByte) (hi : ∀ s, (f s).index = s.index) (s : State) (n : Nat) :
    (f s).loadRegs n = f (s.loadRegs n) := by
  induction n with
  | zero => rfl
  | succ n ih => simp only [State.loadRegs]; rw [ih, hf]; simp [State.indexed, hr, hi]

/-! ### The execute phase -/

/-- The execute phase always answers a next state: the instruction's effect on a core that goes on, or the halt latch set and
nothing else. -/
theorem exec_total (i : Instr) (s : State) :
    ∃ t, exec i s = .next t ∧ (t.halt = s.halt ∨ ∃ c, t = { s with halt := .halted c }) := by
  cases i
  case call n =>
    simp only [exec, execCall, raiseFatal]
    cases s.stackFull
    · exact ⟨_, rfl, .inl rfl⟩
    · exact ⟨_, rfl, .inr ⟨_, rfl⟩⟩
  case skp x =>
    rcases skipOnKey_cases s x true with ⟨b, -, h⟩ | ⟨-, h⟩
    · exact ⟨_, h, .inl rfl⟩
    · exact ⟨_, h, .inr ⟨_, rfl⟩⟩
  case sknp x =>
    rcases skipOnKey_cases s x false with ⟨b, -, h⟩ | ⟨-, h⟩
    · exact ⟨_, h, .inl rfl⟩
    · exact ⟨_, h, .inr ⟨_, rfl⟩⟩
  case ldKey x => exact ⟨_, rfl, .inl (by split <;> rfl)⟩
  case bcd => exact ⟨_, rfl, .inl (by rw [writeBytes_eq])⟩
  case store => exact ⟨_, rfl, .inl (by rw [writeBytes_eq])⟩
  case load x => exact ⟨_, rfl, .inl (by rw [(onlyRegs_loadRegs _ _).1])⟩
  all_goals exact ⟨_, rfl, .inl rfl⟩

end Sys2Proof.Machine
end

