-- ==== Sys2Proof/Laws/PerInstr.lean ====
section
/-! SUPPORT. Statements per instruction. `RowOfEncoding`: the opcode of an instruction belongs to the row of R74 the
instruction belongs to, whatever its operands. -/

namespace Sys2Proof.Laws.RowOfEncoding

/-- The opcode of `i` is in `i`'s row of the table. -/
def Statement (i : Instr) : Prop := i.row.matchesWord (encode i) = true

/-! A row tests the whole word, the major digit, that digit and the low nibble, or that digit and the low byte. -/

theorem of_major (w p : Word) (h : wordNNN (majorOf w) 0 = p) : OpcodeRow.matchesWord ⟨0xF000, p⟩ w = true := by
  subst h; simp [OpcodeRow.matchesWord, mask_major]

theorem of_major_low (w p : Word) (h : wordXYN (majorOf w) 0 0 (nOf w) = p) :
    OpcodeRow.matchesWord ⟨0xF00F, p⟩ w = true := by
  subst h; simp [OpcodeRow.matchesWord, mask_major_low]

theorem of_major_byte (w p : Word) (h : wordXKK (majorOf w) 0 (kkOf w) = p) :
    OpcodeRow.matchesWord ⟨0xF0FF, p⟩ w = true := by
  subst h; simp [OpcodeRow.matchesWord, mask_major_byte]

theorem cls : Statement .cls := by unfold Statement; decide

theorem ret : Statement .ret := by unfold Statement; decide

theorem jp (nnn : Addr) : Statement (.jp nnn) :=
  of_major (wordNNN 0x1 nnn) _ (by rw [majorOf_wordNNN]; decide)

theorem call (nnn : Addr) : Statement (.call nnn) :=
  of_major (wordNNN 0x2 nnn) _ (by rw [majorOf_wordNNN]; decide)

theorem seImm (x : RegNum) (kk : Byte) : Statement (.seImm x kk) :=
  of_major (wordXKK 0x3 x kk) _ (by rw [majorOf_wordXKK]; decide)

theorem sneImm (x : RegNum) (kk : Byte) : Statement (.sneImm x kk) :=
  of_major (wordXKK 0x4 x kk) _ (by rw [majorOf_wordXKK]; decide)

theorem seReg (x : RegNum) (y : RegNum) : Statement (.seReg x y) :=
  of_major_low (wordXYN 0x5 x y 0x0) _ (by rw [majorOf_wordXYN, nOf_wordXYN]; decide)

theorem ldImm (x : RegNum) (kk : Byte) : Statement (.ldImm x kk) :=
  of_major (wordXKK 0x6 x kk) _ (by rw [majorOf_wordXKK]; decide)

theorem addImm (x : RegNum) (kk : Byte) : Statement (.addImm x kk) :=
  of_major (wordXKK 0x7 x kk) _ (by rw [majorOf_wordXKK]; decide)

theorem ldReg (x : RegNum) (y : RegNum) : Statement (.ldReg x y) :=
  of_major_low (wordXYN 0x8 x y 0x0) _ (by rw [majorOf_wordXYN, nOf_wordXYN]; decide)

theorem orReg (x : RegNum) (y : RegNum) : Statement (.orReg x y) :=
  of_major_low (wordXYN 0x8 x y 0x1) _ (by rw [majorOf_wordXYN, nOf_wordXYN]; decide)

theorem andReg (x : RegNum) (y : RegNum) : Statement (.andReg x y) :=
  of_major_low (wordXYN 0x8 x y 0x2) _ (by rw [majorOf_wordXYN, nOf_wordXYN]; decide)

theorem xorReg (x : RegNum) (y : RegNum) : Statement (.xorReg x y) :=
  of_major_low (wordXYN 0x8 x y 0x3) _ (by rw [majorOf_wordXYN, nOf_wordXYN]; decide)

theorem addReg (x : RegNum) (y : RegNum) : Statement (.addReg x y) :=
  of_major_low (wordXYN 0x8 x y 0x4) _ (by rw [majorOf_wordXYN, nOf_wordXYN]; decide)

theorem sub (x : RegNum) (y : RegNum) : Statement (.sub x y) :=
  of_major_low (wordXYN 0x8 x y 0x5) _ (by rw [majorOf_wordXYN, nOf_wordXYN]; decide)

theorem shr (x : RegNum) (y : RegNum) : Statement (.shr x y) :=
  of_major_low (wordXYN 0x8 x y 0x6) _ (by rw [majorOf_wordXYN, nOf_wordXYN]; decide)

theorem subn (x : RegNum) (y : RegNum) : Statement (.subn x y) :=
  of_major_low (wordXYN 0x8 x y 0x7) _ (by rw [majorOf_wordXYN, nOf_wordXYN]; decide)

theorem shl (x : RegNum) (y : RegNum) : Statement (.shl x y) :=
  of_major_low (wordXYN 0x8 x y 0xE) _ (by rw [majorOf_wordXYN, nOf_wordXYN]; decide)

theorem sneReg (x : RegNum) (y : RegNum) : Statement (.sneReg x y) :=
  of_major_low (wordXYN 0x9 x y 0x0) _ (by rw [majorOf_wordXYN, nOf_wordXYN]; decide)

theorem ldI (nnn : Addr) : Statement (.ldI nnn) :=
  of_major (wordNNN 0xA nnn) _ (by rw [majorOf_wordNNN]; decide)

theorem jpV0 (nnn : Addr) : Statement (.jpV0 nnn) :=
  of_major (wordNNN 0xB nnn) _ (by rw [majorOf_wordNNN]; decide)

theorem rnd (x : RegNum) (kk : Byte) : Statement (.rnd x kk) :=
  of_major (wordXKK 0xC x kk) _ (by rw [majorOf_wordXKK]; decide)

theorem drw (x : RegNum) (y : RegNum) (n : Nibble) : Statement (.drw x y n) :=
  of_major (wordXYN 0xD x y n) _ (by rw [majorOf_wordXYN]; decide)

theorem skp (x : RegNum) : Statement (.skp x) :=
  of_major_byte (wordXKK 0xE x 0x9E) _ (by rw [majorOf_wordXKK, kkOf_wordXKK]; decide)

theorem sknp (x : RegNum) : Statement (.sknp x) :=
  of_major_byte (wordXKK 0xE x 0xA1) _ (by rw [majorOf_wordXKK, kkOf_wordXKK]; decide)

theorem ldVxDT (x : RegNum) : Statement (.ldVxDT x) :=
  of_major_byte (wordXKK 0xF x 0x07) _ (by rw [majorOf_wordXKK, kkOf_wordXKK]; decide)

theorem ldKey (x : RegNum) : Statement (.ldKey x) :=
  of_major_byte (wordXKK 0xF x 0x0A) _ (by rw [majorOf_wordXKK, kkOf_wordXKK]; decide)

theorem ldDT (x : RegNum) : Statement (.ldDT x) :=
  of_major_byte (wordXKK 0xF x 0x15) _ (by rw [majorOf_wordXKK, kkOf_wordXKK]; decide)

theorem ldST (x : RegNum) : Statement (.ldST x) :=
  of_major_byte (wordXKK 0xF x 0x18) _ (by rw [majorOf_wordXKK, kkOf_wordXKK]; decide)

theorem addI (x : RegNum) : Statement (.addI x) :=
  of_major_byte (wordXKK 0xF x 0x1E) _ (by rw [majorOf_wordXKK, kkOf_wordXKK]; decide)

theorem ldF (x : RegNum) : Statement (.ldF x) :=
  of_major_byte (wordXKK 0xF x 0x29) _ (by rw [majorOf_wordXKK, kkOf_wordXKK]; decide)

theorem bcd (x : RegNum) : Statement (.bcd x) :=
  of_major_byte (wordXKK 0xF x 0x33) _ (by rw [majorOf_wordXKK, kkOf_wordXKK]; decide)

theorem store (x : RegNum) : Statement (.store x) :=
  of_major_byte (wordXKK 0xF x 0x55) _ (by rw [majorOf_wordXKK, kkOf_wordXKK]; decide)

theorem load (x : RegNum) : Statement (.load x) :=
  of_major_byte (wordXKK 0xF x 0x65) _ (by rw [majorOf_wordXKK, kkOf_wordXKK]; decide)

end Sys2Proof.Laws.RowOfEncoding
end

