-- ==== Sys2Proof/Tests/Slice0.lean ====
section
/-! SUPPORT. Tests of the model against the spec's own vectors (95_test_vectors.md; expected results are the tables' own),
the well-formedness smoke tests, the decode tests, and a witness for every statement that has hypotheses. Each test is one
step or one operation on a small state. -/

namespace Sys2Proof.Tests

open Sys2Proof.Machine

/-! ### Helpers -/

/-- The configuration of 95_test_vectors.md, with the divisor given. -/
def cfg (n : Nat) : Params := { timerDivisor := n, stackDepth := none, nopSet := [], font := conventionalFont }

/-- One idle host move that supplies the random byte 0xA7. -/
def idle : HostMoves := ⟨none, false, false, 0xA7#8⟩

/-- The launch state of the vectors: loaded and released, divisor 1000, an idle move decided for each of the step's three turns. -/
def start : State := { State.reset with params := cfg 1000, loaded := true, ready := true, hostQueue := [idle, idle, idle] }

/-- The opcode placed at the address, and `pc` there. -/
def placed (a : Addr) (op : Word) (s : State) : State := { s.writeBytes a (bytesOfWord op) with pc := a }

/-- The opcode at 0x200. -/
def prog (op : Word) (s : State) : State := placed 0x200#12 op s

/-- What `f` reads of the state after one step. -/
def after {α : Type} (s : State) (f : State → α) : Option α :=
  match step s with
  | .next t => some (f t)
  | .fault _ => none
  | .refused _ => none

/-- The snapshot in which the listed keys are pressed. -/
def pressed (l : List (Fin 16)) : Keys := Vector.ofFn fun i => l.contains i

/-- The display on which the listed pixels are on. -/
def lit (l : List (Nat × Nat)) : Display := l.foldl (fun d p => setPixel d p.1 p.2 true) blankDisplay

/-! ### Well-formedness: each check refuses an ill-formed term -/

theorem test_wf_accepts : (cfg 1).wellFormed = true := by decide
theorem test_wf_refuses_divisor_zero : (cfg 0).wellFormed = false := by decide
theorem test_wf_refuses_stack_depth_zero : { cfg 1 with stackDepth := some 0 }.wellFormed = false := by decide
theorem test_wf_refuses_nop_word_of_a_row : { cfg 1 with nopSet := [0x0000#16, 0x1000#16] }.wellFormed = false := by
  decide
theorem test_wf_accepts_nop_words_of_no_row :
    { cfg 1 with nopSet := [0x0000#16, 0x8128#16], stackDepth := some 1 }.wellFormed = true := by decide
theorem test_wf_rom_bound :
    romFits (List.replicate 3584 0#8) = true ∧ romFits (List.replicate 3585 0#8) = false := by
  unfold romFits
  rw [List.length_replicate, List.length_replicate]; decide

/-! ### Decode: every constructor by a word written out bit by bit (30_encoding.md R71, R74) -/

theorem test_decode_fixed :
    decode 0b0000000011100000#16 = some (.cls) ∧
    decode 0b0000000011101110#16 = some (.ret) := by decide

theorem test_decode_nnn :
    decode 0b0001101010111100#16 = some (.jp 0xABC) ∧
    decode 0b0010001100000001#16 = some (.call 0x301) ∧
    decode 0b1010111111111111#16 = some (.ldI 0xFFF) ∧
    decode 0b1011000000000010#16 = some (.jpV0 0x002) := by decide

theorem test_decode_xkk :
    decode 0b0011101001000010#16 = some (.seImm 0xA 0x42) ∧
    decode 0b0100101001000010#16 = some (.sneImm 0xA 0x42) ∧
    decode 0b0110000100101010#16 = some (.ldImm 0x1 0x2A) ∧
    decode 0b0111111100000001#16 = some (.addImm 0xF 0x01) ∧
    decode 0b1100000100001111#16 = some (.rnd 0x1 0x0F) := by decide

theorem test_decode_xy0 :
    decode 0b0101000100100000#16 = some (.seReg 0x1 0x2) ∧
    decode 0b1001101010110000#16 = some (.sneReg 0xA 0xB) := by decide

theorem test_decode_family8 :
    decode 0b1000000100100000#16 = some (.ldReg 0x1 0x2) ∧
    decode 0b1000000100100001#16 = some (.orReg 0x1 0x2) ∧
    decode 0b1000000100100010#16 = some (.andReg 0x1 0x2) ∧
    decode 0b1000000100100011#16 = some (.xorReg 0x1 0x2) ∧
    decode 0b1000000100100100#16 = some (.addReg 0x1 0x2) ∧
    decode 0b1000000100100101#16 = some (.sub 0x1 0x2) ∧
    decode 0b1000000100100110#16 = some (.shr 0x1 0x2) ∧
    decode 0b1000111111100111#16 = some (.subn 0xF 0xE) ∧
    decode 0b1000000100101110#16 = some (.shl 0x1 0x2) := by decide

theorem test_decode_xyn :
    decode 0b1101000100100101#16 = some (.drw 0x1 0x2 0x5) ∧
    decode 0b1101000000000000#16 = some (.drw 0x0 0x0 0x0) := by decide

theorem test_decode_familyE :
    decode 0b1110001010011110#16 = some (.skp 0x2) ∧
    decode 0b1110111110100001#16 = some (.sknp 0xF) := by decide

theorem test_decode_familyF :
    decode 0b1111000100000111#16 = some (.ldVxDT 0x1) ∧
    decode 0b1111010100001010#16 = some (.ldKey 0x5) ∧
    decode 0b1111000000010101#16 = some (.ldDT 0x0) ∧
    decode 0b1111000100011000#16 = some (.ldST 0x1) ∧
    decode 0b1111000100011110#16 = some (.addI 0x1) ∧
    decode 0b1111000000101001#16 = some (.ldF 0x0) ∧
    decode 0b1111001100110011#16 = some (.bcd 0x3) ∧
    decode 0b1111001001010101#16 = some (.store 0x2) ∧
    decode 0b1111111101100101#16 = some (.load 0xF) := by decide

/-- 95_test_vectors.md 2.1: the words that decode to nothing. -/
theorem test_decode_illegal :
    ([0x0000, 0x00E1, 0x00EF, 0x00FE, 0x0123, 0x0FFF, 0x5121, 0x512F, 0x8128, 0x8129, 0x812A, 0x812B, 0x812C, 0x812D] ++
     [0x812F, 0x9AB1, 0xE000, 0xE19F, 0xE1A0, 0xE29D, 0xF000, 0xF00B, 0xF075, 0xF085, 0xF030, 0xF1FF] : List Word).all
      (fun op => (decode op).isNone) = true := by decide

/-- R74: the rows are pairwise disjoint. -/
theorem test_rows_disjoint :
    opcodeTable.Pairwise (fun r q => (r.pattern ^^^ q.pattern) &&& (r.mask &&& q.mask) ≠ 0) := by decide

/-- R43: the byte at the lower address is the high byte; a lone byte is no opcode. -/
theorem test_decode_bytes :
    decodeBytes [0x61#8, 0x2A#8, 0x00#8] = .ok (.ldImm 0x1 0x2A, [0x00#8]) ∧ decodeBytes [0x61#8] = .error .truncated ∧
    decodeTableWord 16 0x612A = some (.ldImm 0x1 0x2A) := by decide

/-! ### Fetch and step (95_test_vectors.md 2.2) -/

theorem test_fetch_odd :
    after (placed 0x201 0x612A start) (fun t => (t.reg 0x1, t.pc)) = some (0x2A, 0x203) := by
  decide

theorem test_fetch_wraps :
    after (placed 0xFFF 0x612A start) (fun t => (t.reg 0x1, t.pc)) = some (0x2A, 0x001) := by
  decide

theorem test_illegal_halts :
    after (prog 0x0000 { start with tick := 3 })
      (fun t => (t.halt, t.pc, t.tick)) = some (.halted (.decodeError 0x0000), 0x202, 3) := by
  decide

/-- T1. -/
theorem test_nop_word :
    after (prog 0x0000 { start with params := { cfg 1000 with nopSet := [0x0000] } })
      (fun t => (t.halt, t.pc, t.update.isNone, t.tick)) = some (.running, 0x202, true, 1) := by
  decide

/-! ### Flow (2.3) -/

theorem test_jp :
    after (prog 0x1ABC start) (fun t => t.pc) = some 0xABC := by
  decide

theorem test_call_pushes_wrapped_pc :
    after (placed 0xFFE 0x2300 { start with stack := [0x20A] })
      (fun t => (t.pc, t.stack)) = some (0x300, [0x000, 0x20A]) := by
  decide

theorem test_call_full :
    after (prog 0x2300 { start with stack := [0x222, 0x111], params := { cfg 1000 with stackDepth := some 2 } })
      (fun t => (t.halt, t.stack, t.pc)) = some (.halted (.stackOverflow 0x202), [0x222, 0x111], 0x202) := by
  decide

theorem test_ret :
    after (placed 0x300 0x00EE { start with stack := [0x456, 0x20A] })
      (fun t => (t.pc, t.stack)) = some (0x456, [0x20A]) := by
  decide

theorem test_ret_empty :
    after (placed 0x300 0x00EE start)
      (fun t => (t.pc, t.stack, t.halt)) = some (0x000, [], .running) := by
  decide

theorem test_jpV0 :
    after (prog 0xB300 (start.setReg 0x0 0x10)) (fun t => t.pc) = some 0x310 := by
  decide

theorem test_jpV0_wraps :
    after (prog 0xBFFF (start.setReg 0x0 0xFF)) (fun t => t.pc) = some 0x0FE := by
  decide

/-! ### Skips (2.4) -/

theorem test_seImm :
    after (prog 0x3A42 (start.setReg 0xA 0x42)) (fun t => t.pc) = some 0x204 := by
  decide

theorem test_seImm_wraps :
    after (placed 0xFFC 0x3000 start) (fun t => t.pc) = some 0x000 := by
  decide

theorem test_sneImm :
    after (prog 0x4A42 (start.setReg 0xA 0x43)) (fun t => t.pc) = some 0x204 := by
  decide

theorem test_sneImm_equal :
    after (prog 0x4A42 (start.setReg 0xA 0x42)) (fun t => t.pc) = some 0x202 := by
  decide

theorem test_seReg :
    after (prog 0x5120 ((start.setReg 0x1 7).setReg 0x2 7)) (fun t => t.pc) = some 0x204 := by
  decide

theorem test_seReg_differ :
    after (prog 0x5120 ((start.setReg 0x1 7).setReg 0x2 8)) (fun t => t.pc) = some 0x202 := by
  decide

theorem test_sneReg :
    after (prog 0x9120 ((start.setReg 0x1 7).setReg 0x2 8)) (fun t => t.pc) = some 0x204 := by
  decide

theorem test_sneReg_same :
    after (prog 0x9330 (start.setReg 0x3 9)) (fun t => t.pc) = some 0x202 := by
  decide

/-! ### Arithmetic and logic (2.5); VF in is 7 where it must stay -/

theorem test_ldImm :
    after (prog 0x612A start) (fun t => t.reg 0x1) = some 0x2A := by
  decide

theorem test_ldImm_vF :
    after (prog 0x6F01 start) (fun t => t.reg vF) = some 0x01 := by
  decide

theorem test_addImm_wraps :
    after (prog 0x7102 ((start.setReg 0x1 0xFF).setReg vF 0))
      (fun t => (t.reg 0x1, t.reg vF)) = some (0x01, 0x00) := by
  decide

theorem test_addImm_vF :
    after (prog 0x7F01 (start.setReg vF 0xFF)) (fun t => t.reg vF) = some 0x00 := by
  decide

theorem test_ldReg :
    after (prog 0x8120 ((start.setReg 0x1 1).setReg 0x2 0x99))
      (fun t => (t.reg 0x1, t.reg 0x2)) = some (0x99, 0x99) := by
  decide

theorem test_orReg :
    after (prog 0x8121 (((start.setReg 0x1 0xF0).setReg 0x2 0x0F).setReg vF 7))
      (fun t => (t.reg 0x1, t.reg vF)) = some (0xFF, 7) := by
  decide

theorem test_andReg :
    after (prog 0x8122 (((start.setReg 0x1 0xF0).setReg 0x2 0x3C).setReg vF 7))
      (fun t => (t.reg 0x1, t.reg vF)) = some (0x30, 7) := by
  decide

theorem test_xorReg :
    after (prog 0x8123 (((start.setReg 0x1 0xF0).setReg 0x2 0x3C).setReg vF 7))
      (fun t => (t.reg 0x1, t.reg vF)) = some (0xCC, 7) := by
  decide

theorem test_addReg :
    after (prog 0x8124 ((start.setReg 0x1 0xC8).setReg 0x2 0x64))
      (fun t => (t.reg 0x1, t.reg vF)) = some (0x2C, 1) := by
  decide

theorem test_addReg_vF :
    after (prog 0x8F14 ((start.setReg vF 1).setReg 0x1 2)) (fun t => t.reg vF) = some 0 := by
  decide

theorem test_sub :
    after (prog 0x8125 ((start.setReg 0x1 5).setReg 0x2 7))
      (fun t => (t.reg 0x1, t.reg vF)) = some (0xFE, 1) := by
  decide

theorem test_sub_equal :
    after (prog 0x8125 (((start.setReg 0x1 5).setReg 0x2 5).setReg vF 1))
      (fun t => (t.reg 0x1, t.reg vF)) = some (0x00, 0) := by
  decide

theorem test_subn :
    after (prog 0x8127 ((start.setReg 0x1 5).setReg 0x2 7))
      (fun t => (t.reg 0x1, t.reg vF)) = some (0x02, 0) := by
  decide

theorem test_subn_borrow :
    after (prog 0x8127 ((start.setReg 0x1 7).setReg 0x2 5))
      (fun t => (t.reg 0x1, t.reg vF)) = some (0xFE, 1) := by
  decide

theorem test_shr :
    after (prog 0x8126 ((start.setReg 0x1 0xFF).setReg 0x2 0x33))
      (fun t => (t.reg 0x1, t.reg vF)) = some (0x7F, 1) := by
  decide

theorem test_shr_vF :
    after (prog 0x8F26 (start.setReg vF 3)) (fun t => t.reg vF) = some 0x00 := by
  decide

theorem test_shl :
    after (prog 0x812E ((start.setReg 0x1 0x81).setReg 0x2 0x33))
      (fun t => (t.reg 0x1, t.reg vF)) = some (0x02, 0x80) := by
  decide

theorem test_shl_vF :
    after (prog 0x8F2E (start.setReg vF 0xC1)) (fun t => t.reg vF) = some 0x00 := by
  decide

theorem test_rnd :
    after (prog 0xC10F start) (fun t => t.reg 0x1) = some 0x07 := by
  decide

/-! ### Index and memory (2.6) -/

theorem test_ldI :
    after (prog 0xAFFF start) (fun t => t.index) = some 0xFFF := by
  decide

theorem test_addI_wraps :
    after (prog 0xF11E { start.setReg 0x1 0xFF with index := 0xFF0 })
      (fun t => (t.index, t.reg vF)) = some (0x0EF, 0) := by
  decide

theorem test_ldF :
    after (prog 0xF029 (start.setReg 0x0 0x0F)) (fun t => t.index) = some 0x09B := by
  decide

theorem test_ldF_no_mask :
    after (prog 0xF029 (start.setReg 0x0 0xFF)) (fun t => t.index) = some 0x54B := by
  decide

theorem test_bcd :
    after (prog 0xF333 { start.setReg 0x3 157 with index := 0x300 })
      (fun t => (t.readByte 0x300, t.readByte 0x301, t.readByte 0x302, t.index)) = some (1, 5, 7, 0x300) := by
  decide

theorem test_bcd_wraps :
    after (prog 0xF333 { start.setReg 0x3 123 with index := 0xFFE })
      (fun t => (t.readByte 0xFFE, t.readByte 0xFFF, t.readByte 0x000)) = some (1, 2, 3) := by
  decide

theorem test_store :
    after (prog 0xF255 { ((start.setReg 0x0 0x11).setReg 0x2 0x33).setReg 0x3 0x44 with index := 0x400 })
      (fun t => (t.readByte 0x400, t.readByte 0x402, t.readByte 0x403, t.index)) = some (0x11, 0x33, 0, 0x400) := by
  decide

theorem test_store_wraps :
    after (prog 0xF155 { (start.setReg 0x0 0xAA).setReg 0x1 0xBB with index := 0xFFF })
      (fun t => (t.readByte 0xFFF, t.readByte 0x000)) = some (0xAA, 0xBB) := by
  decide

theorem test_load :
    after (prog 0xF265 { (start.writeBytes 0x300 [1, 5, 7, 9]).setReg 0x3 0x55 with index := 0x300 })
      (fun t => (t.reg 0x0, t.reg 0x1, t.reg 0x2, t.reg 0x3, t.index)) = some (1, 5, 7, 0x55, 0x300) := by
  decide

theorem test_load_vF :
    after (prog 0xFF65 { start.writeByte 0x40F 0x77 with index := 0x400 })
      (fun t => t.reg vF) = some 0x77 := by
  decide

/-! ### Display (2.7) -/

theorem test_cls :
    after (prog 0x00E0 { start.setReg vF 1 with disp := lit [(1, 1), (63, 31)] })
      (fun t => (decide (t.disp = blankDisplay), t.reg vF, t.update.isSome, t.frame.consumed)) = some (true, 1, true, false) := by
  decide

/-- The sprite byte at 0x300, drawn by `D011` from the two coordinates on the display given. -/
def sprite (b vx vy : Byte) (d : Display) : State :=
  prog 0xD011 { ((start.writeByte 0x300 b).setReg 0x0 vx).setReg 0x1 vy with index := 0x300, disp := d }

theorem test_drw_clips :
    after (sprite 0xFF 124 63 blankDisplay)
      (fun t => (pixelAt t.disp 60 31, pixelAt t.disp 63 31, pixelAt t.disp 0 31, pixelAt t.disp 60 0, t.reg vF)) = some (true, true, false, false, 0) := by
  decide

theorem test_drw_collides :
    after (sprite 0xF0 0 0 (lit [(3, 0), (4, 0)]))
      (fun t => (pixelAt t.disp 0 0, pixelAt t.disp 3 0, pixelAt t.disp 4 0, pixelAt t.disp 5 0, t.reg vF)) = some (true, false, true, false, 1) := by
  decide

/-! ### Keys and timers (2.8) -/

theorem test_skp :
    after (placed 0x208 0xE29E { start.setReg 0x2 0x0F with keys := pressed [15] })
      (fun t => t.pc) = some 0x20C := by
  decide

theorem test_skp_out_of_range :
    after (placed 0x208 0xE29E (start.setReg 0x2 0x10))
      (fun t => (t.halt, t.pc, t.tick)) = some (.halted (.keyIndexOutOfRange 0x10), 0x20A, 0) := by
  decide

theorem test_sknp :
    after (placed 0x208 0xE2A1 { start.setReg 0x2 3 with keys := pressed [3, 7] })
      (fun t => t.pc) = some 0x20A := by
  decide

theorem test_sknp_out_of_range :
    after (placed 0x208 0xE2A1 (start.setReg 0x2 0xFF))
      (fun t => t.halt) = some (.halted (.keyIndexOutOfRange 0xFF)) := by
  decide

theorem test_ldKey_lowest :
    after (prog 0xF50A { start with keys := pressed [3, 7] })
      (fun t => (t.reg 0x5, t.pc)) = some (3, 0x202) := by
  decide

theorem test_ldKey_polls :
    after (placed 0xFFE 0xF50A start) (fun t => (t.pc, t.reg 0x5, t.tick)) = some (0xFFE, 0, 1) := by
  decide

theorem test_ldVxDT_before_tick :
    after (prog 0xF107 { start with dt := 0x2A, params := cfg 1 })
      (fun t => (t.reg 0x1, t.dt)) = some (0x2A, 0x29) := by
  decide

theorem test_ldDT_then_tick :
    after (prog 0xF015 { start.setReg 0x0 5 with params := cfg 1 }) (fun t => t.dt) = some 4 := by
  decide

theorem test_ldDT_zero :
    after (prog 0xF015 { start with params := cfg 1, dt := 9 }) (fun t => t.dt) = some 0 := by
  decide

theorem test_ldST :
    after (prog 0xF118 (start.setReg 0x1 0x1E)) (fun t => (t.st, t.buzzer)) = some (0x1E, true) := by
  decide

theorem test_ldST_then_tick :
    after (prog 0xF118 { start.setReg 0x1 1 with params := cfg 1 })
      (fun t => (t.st, t.buzzer)) = some (0, false) := by
  decide

theorem test_tick_counts :
    after (prog 0x7000 { start with dt := 9, st := 4, params := cfg 3 })
      (fun t => (t.dt, t.st, t.tick)) = some (9, 4, 1) := by
  decide

theorem test_tick_saturates :
    after (prog 0x7000 { start with dt := 1, st := 0, tick := 2, params := cfg 3 })
      (fun t => (t.dt, t.st, t.tick)) = some (0, 0, 0) := by
  decide

/-- T6 and R5: the divisors of 60 Hz and 600 Hz; halves round up. -/
theorem test_timer_divisor : timerDivisorOf 60 1 = 1 ∧ timerDivisorOf 600 1 = 10 ∧ timerDivisorOf 90 1 = 2 := by decide

/-! ### Load, reset and what enables a step (2.9; 60_exceptions.md R232; log entries 3, 19, 29) -/

theorem test_reset_memory :
    State.reset.readByte 0x04F = 0 ∧ State.reset.readByte 0x050 = 0xF0 ∧ State.reset.readByte 0x09F = 0x80 ∧
    State.reset.readByte 0x0A0 = 0 ∧ State.reset.readByte 0xFFF = 0 := by decide

theorem test_load_copies :
    (match State.reset.loadRom [0x00, 0xE0, 0x12, 0x02] with
      | .next t => (t.readByte 0x201, t.readByte 0x203, t.readByte 0x204, t.pc)
      | _ => (0, 0, 0, 0)) = (0xE0, 0x02, 0x00, 0x200) := by decide

theorem test_load_too_large :
    State.reset.loadRom (List.replicate 3585 0#8) = .next { State.reset with halt := .halted (.romTooLarge 3585) } := by
  have h : romFits (List.replicate 3585 0#8) = false := test_wf_rom_bound.2
  unfold State.loadRom
  rw [h, List.length_replicate]; rfl

theorem test_step_refused_on_reset : step { State.reset with params := cfg 1 } = .refused .notLoaded := rfl

theorem test_step_waits_for_ready : step { start with ready := false } = .next { start with ready := false }.hostTurn := rfl

theorem test_step_of_halted_faults :
    step { start with halt := .halted (.decodeError 0) } = .fault (.halted (.decodeError 0)) := rfl

/-- R233: a snapshot published before the read of `KEYS` is the one the step uses. -/
theorem test_keys_before_read :
    after (prog 0xF50A { start with hostQueue := [⟨some (pressed [4]), true, false, 0⟩, idle, idle] })
      (fun t => (t.reg 0x5, t.pc, t.hostQueue)) = some (4, 0x202, []) := by
  decide

/-- R233: one published after the read is newer than the step's, and stands in `KEYS` when the iteration ends. -/
theorem test_keys_after_read :
    after (prog 0xF50A { start with hostQueue := [idle, ⟨some (pressed [4]), false, false, 0⟩, idle] })
      (fun t => (t.pc, t.reg 0x5, t.keys[4], t.snapshot[4])) = some (0x200, 0, true, false) := by
  decide

/-- R233: a frame published by the step and drained before the buzzer write is consumed when the iteration ends. -/
theorem test_drain_after_publish :
    after (prog 0x00E0 { start with hostQueue := [idle, idle, ⟨none, true, false, 0⟩] })
      (fun t => (t.update.isSome, t.frame.consumed)) = some (true, true) := by
  decide

/-- R229: a drain before the publication takes the old frame, and the new one is unconsumed. -/
theorem test_drain_before_publish :
    after (prog 0x00E0 { start with hostQueue := [idle, ⟨none, true, false, 0⟩, idle] })
      (fun t => (t.update.isSome, t.frame.consumed)) = some (true, false) := by
  decide

/-! ### Witnesses: a state and operands that meet a statement's hypotheses together -/

theorem test_witness_DecodedOpcodeEncodesBack : decode 0x812E = some (.shl 0x1 0x2) := by decide

theorem test_witness_DecodeFollowsTheOpcodeTable :
    decode 0x5120 = some (.seReg 0x1 0x2) ∧ (⟨0xF00F, 0x5000⟩ : OpcodeRow) ∈ opcodeTable ∧
    OpcodeRow.matchesWord ⟨0xF00F, 0x5000⟩ 0x5120 = true := by decide

theorem test_witness_StepRunsTheDecodedInstruction :
    (prog 0x7102 start).Enabled ∧ (prog 0x7102 start).fetchWord ∉ (prog 0x7102 start).params.nopSet ∧
    decode (prog 0x7102 start).fetchWord = some (.addImm 0x1 0x02) ∧
    ∃ t, exec (.addImm 0x1 0x02) (prog 0x7102 start).openStep.advance = .next t :=
  ⟨⟨rfl, rfl, rfl, rfl⟩, by decide, by decide, _, rfl⟩

/-- The default NOP set with the zero word added. -/
def nopStart : State := { start with params := { cfg 1000 with nopSet := [0x0000] } }

theorem test_witness_NopWordOnlyAdvances :
    (prog 0x0000 nopStart).Enabled ∧ (prog 0x0000 nopStart).fetchWord ∈ (prog 0x0000 nopStart).params.nopSet :=
  ⟨⟨rfl, by decide, rfl, rfl⟩, by decide⟩

theorem test_witness_IllegalOpcodeHalts :
    (prog 0x8128 start).Enabled ∧ (prog 0x8128 start).fetchWord ∉ (prog 0x8128 start).params.nopSet ∧
    decode (prog 0x8128 start).fetchWord = none := ⟨⟨rfl, rfl, rfl, rfl⟩, by decide, by decide⟩

theorem test_witness_HaltedCoreNeverSteps :
    { start with halt := .halted (.romTooLarge 3585) }.halt = .halted (.romTooLarge 3585) := rfl

theorem test_witness_StepRefusedBeforeLoadOrMisconfigured :
    ({ start with params := cfg 0 }.halt = .running ∧ { start with params := cfg 0 }.params.wellFormed = false) ∧
    ({ start with loaded := false }.halt = .running ∧ { start with loaded := false }.params.wellFormed = true ∧
      { start with loaded := false }.loaded = false) := ⟨⟨rfl, by decide⟩, rfl, by decide, rfl⟩

theorem test_witness_WaitsUntilReadyAndReadyStays :
    ({ start with ready := false }.halt = .running ∧ { start with ready := false }.params.wellFormed = true ∧
      { start with ready := false }.loaded = true ∧ { start with ready := false }.ready = false) ∧
    (∃ t, step (prog 0x00E0 start) = .next t) ∧ (prog 0x00E0 start).ready = true :=
  ⟨⟨rfl, by decide, rfl, rfl⟩, ⟨_, rfl⟩, rfl⟩

/-- Enabled states: one whose step completes, one whose step halts, one that polls a key. -/
theorem test_witness_EnabledStepCompletesOrHalts :
    (prog 0x00E0 start).Enabled ∧ (prog 0x0000 start).Enabled ∧ (prog 0xF50A start).Enabled ∧
    decode (prog 0xF50A start).fetchWord = some (.ldKey 0x5) ∧
    after (prog 0x00E0 start) (fun t => t.halt) = some .running ∧
    after (prog 0x0000 start) (fun t => t.halt) = some (.halted (.decodeError 0x0000)) :=
  ⟨⟨rfl, rfl, rfl, rfl⟩, ⟨rfl, rfl, rfl, rfl⟩, ⟨rfl, rfl, rfl, rfl⟩, by decide, by decide, by decide⟩

/-- The bound of the divisor; the tick below the divisor, and at it with a timer at 0 and one above. -/
theorem test_witness_TimerTickDecrementsOnTheDivisor :
    (30 * 1 ≤ 30 ∧ timerDivisorOf 30 1 = 1 ∧ ¬ 30 * 1 ≤ 29 ∧ timerDivisorOf 29 1 = 0) ∧
    { start with tick := 998 }.tick + 1 ≠ { start with tick := 998 }.params.timerDivisor ∧
    { start with tick := 999 }.tick + 1 = { start with tick := 999 }.params.timerDivisor ∧
    ({ start with tick := 999, dt := 0, st := 3 }.timerTick.dt, { start with tick := 999, dt := 0, st := 3 }.timerTick.st)
      = (0, 2) := by decide

theorem start_inv : start.Inv :=
  ⟨rfl, by decide, fun _ h => (by cases h), rfl, rfl, fun _ h => (by cases h)⟩

theorem test_witness_StepKeepsTheInvariant :
    (prog 0xF50A start).Inv ∧ ∃ t, step (prog 0xF50A start) = .next t :=
  ⟨⟨by decide, by decide, fun _ h => (by cases h), rfl, rfl, fun _ h => (by cases h)⟩, _, rfl⟩

/-- A state that meets the invariant with memory written, a bounded stack in use, a sounding timer and a frame published. -/
theorem test_witness_Inv_not_only_reset :
    { prog 0xF50A start with
        stack := [0x20A], params := { cfg 1000 with stackDepth := some 1 }, st := 5, buzzer := true, disp := lit [(1, 1)],
        frame := ⟨lit [(1, 1)], false⟩, update := some (lit [(1, 1)]) }.Inv :=
  ⟨by decide, by decide, fun d h => (by cases h; decide), rfl, rfl, fun _ h => (by cases h; rfl)⟩

theorem test_witness_LoadKeepsTheInvariant :
    State.reset.Inv ∧ ∃ t, State.reset.loadRom [0x00, 0xE0] = .next t :=
  ⟨⟨rfl, Nat.succ_pos _, fun _ h => (by cases h), rfl, rfl, fun _ h => (by cases h)⟩, _, rfl⟩

theorem test_witness_StepKeepsParametersAndLoad : ∃ t, step (prog 0x6F01 start) = .next t := ⟨_, rfl⟩

theorem test_witness_ResetMeetsTheInvariant : (cfg 1).wellFormed = true := by decide

theorem test_witness_CreationInstallsTheFont :
    (0 < 80 ∧ 79 < 80) ∧ ((0x04F : Addr).toNat < 0x050 ∧ 0x09F < (0x0A0 : Addr).toNat) := by decide

/-- The empty program and the longest; an address of each of the clauses on memory, at their boundaries. -/
theorem test_witness_LaunchStateAfterLoad :
    (List.replicate 0 (0 : Byte)).length ≤ 3584 ∧ (List.replicate 3584 (0 : Byte)).length ≤ 3584 ∧
    ((0x0A0 : Addr).toNat < 0x050 ∨ 0x09F < (0x0A0 : Addr).toNat) ∧
    ((0x1FF : Addr).toNat < 0x200 ∨ 0x200 + 0 ≤ (0x1FF : Addr).toNat) := by
  rw [List.length_replicate, List.length_replicate]; decide

theorem test_witness_LoadCopiesTheProgram :
    State.reset.halt = .running ∧ State.reset.loaded = false ∧ ([0x00, 0xE0, 0x12, 0x02] : List Byte).length ≤ 3584 ∧
    (3 < ([0x00, 0xE0, 0x12, 0x02] : List Byte).length) ∧ (0x1FF : Addr).toNat < 0x200 ∧
    0x200 + ([0x00, 0xE0, 0x12, 0x02] : List Byte).length ≤ (0x204 : Addr).toNat := by
  refine ⟨rfl, rfl, ?_⟩; decide

theorem test_witness_OversizedOrSecondLoadStops :
    (State.reset.halt = .running ∧ State.reset.loaded = false ∧ 3584 < (List.replicate 3585 (0 : Byte)).length) ∧
    (start.halt = .running ∧ start.loaded = true) := ⟨⟨rfl, rfl, by rw [List.length_replicate]; decide⟩, rfl, rfl⟩

theorem test_witness_RetPopsOrGoesToZero :
    start.stack = [] ∧ { start with stack := [0x456, 0x20A] }.stack = 0x456 :: [0x20A] := ⟨rfl, rfl⟩

/-- An unbounded stack, and a bounded one with one place left. -/
theorem test_witness_CallPushesTheReturnAddress :
    (∀ d, start.params.stackDepth = some d → start.stack.length < d) ∧
    (∀ d, { start with stack := [0x111], params := { cfg 1000 with stackDepth := some 2 } }.params.stackDepth = some d →
      { start with stack := [0x111], params := { cfg 1000 with stackDepth := some 2 } }.stack.length < d) :=
  ⟨fun _ h => (by cases h), fun d h => (by cases h; decide)⟩

theorem test_witness_CallOnFullStackHalts :
    { start with stack := [0x222, 0x111], params := { cfg 1000 with stackDepth := some 2 } }.params.stackDepth = some 2 ∧
    2 ≤ { start with stack := [0x222, 0x111], params := { cfg 1000 with stackDepth := some 2 } }.stack.length :=
  ⟨rfl, by decide⟩

theorem test_witness_CallThenReturnRoundTrip :
    ∀ d, { start with stack := [0x111] }.params.stackDepth = some d → { start with stack := [0x111] }.stack.length < d :=
  fun _ h => by cases h

theorem test_witness_KeySkips : ((start.setReg 0x2 15).reg 0x2).toNat < 16 ∧ (start.reg 0x2).toNat < 16 := by decide

theorem test_witness_KeyIndexAbove15Halts :
    15 < ((start.setReg 0x2 16).reg 0x2).toNat ∧ 15 < ((start.setReg 0x2 255).reg 0x2).toNat := by decide

/-- The clauses on a destination that is VF and on one that is not (`8xy4`, `8xy5`, `8xy7`, the shifts). -/
theorem test_witness_flag_writers : ((0x1 : RegNum) ≠ vF) ∧ ((0xF : RegNum) = vF) ∧ ((0x2 : RegNum) ≠ 0x1) := by decide

theorem test_witness_StoreWritesRegisterBlock :
    (0x3 : RegNum).toNat ≤ (0x3 : RegNum).toNat ∧ ∀ k, k ≤ (0x3 : RegNum).toNat → (0x404 : Addr) ≠ 0x400 + BitVec.ofNat 12 k := by
  decide

theorem test_witness_StoreThenLoadRoundTrip :
    ∀ r : RegNum, (0x3 : RegNum).toNat < r.toNat → (Vector.replicate 16 (0 : Byte))[r.toNat] = start.reg r := by decide

/-- A store that reaches both bytes of the next opcode, its first alone, its second alone, and one that wraps to it. -/
theorem test_witness_StoresAreSeenByTheNextFetch :
    ({ start.setReg 0x0 0x61 with index := 0x200 }.byteAfterStore 0x1 0x200,
      { start.setReg 0x0 0x61 with index := 0x200 }.byteAfterStore 0x0 0x201,
      { start.setReg 0x0 0x61 with index := 0x201 }.byteAfterStore 0x0 0x201,
      { start.setReg 0x1 0x61 with index := 0xFFF }.byteAfterStore 0x1 0x000,
      { start.setReg 0x3 157 with index := 0x1FE }.byteAfterBcd 0x3 0x200) = (0x61, 0x00, 0x61, 0x61, 7) := by decide

/-- A draw that collides, and one that does not. -/
theorem test_witness_DrawXorsClipsAndCollides :
    (sprite 0xF0 0 0 (lit [(3, 0)])).Collides 0x0 0x1 0x1 ∧ ¬ (sprite 0xF0 0 0 blankDisplay).Collides 0x0 0x1 0x1 := by
  refine ⟨⟨3, 0, by decide, by decide, by decide, by decide⟩, ?_⟩
  rintro ⟨px, py, hx, hy, -, h⟩
  have hb : pixelAt blankDisplay px py = true := h
  simp [pixelAt, blankDisplay, hx, hy] at hb

theorem test_witness_DrawTwiceRestoresTheDisplay : (0x0 : RegNum) ≠ vF ∧ (0x1 : RegNum) ≠ vF := by decide

theorem test_witness_UpdateExactlyFromDisplayInstructions :
    (prog 0x00E0 start).Enabled ∧ (prog 0x00E0 start).RunsDisplayInstruction ∧
    (prog 0xD010 start).Enabled ∧ (prog 0xD010 start).RunsDisplayInstruction ∧
    (prog 0x6F01 start).Enabled ∧ ¬ (prog 0x6F01 start).RunsDisplayInstruction :=
  ⟨⟨rfl, rfl, rfl, rfl⟩, ⟨by decide, .inl (by decide)⟩, ⟨rfl, rfl, rfl, rfl⟩,
    ⟨by decide, .inr ⟨0x0, 0x1, 0x0, by decide⟩⟩, ⟨rfl, rfl, rfl, rfl⟩, by
      rintro ⟨-, h | ⟨x, y, n, h⟩⟩
      · exact absurd h (by decide)
      · have e : decode (prog 0x6F01 start).fetchWord = some (.ldImm 0xF 0x01) := by decide
        rw [e] at h; cases h⟩

/-- No key pressed; keys 3 and 7, of which 3 is the lowest; key 15 alone. -/
theorem test_witness_KeyWaitPollsOrTakesLowest :
    (∀ i, (h : i < 16) → noKeys[i] = false) ∧
    ((pressed [3, 7])[3] = true ∧ ∀ j, (h : j < 3) → (pressed [3, 7])[j] = false) ∧
    ((pressed [15])[15] = true ∧ ∀ j, (h : j < 15) → (pressed [15])[j] = false) := by decide

/-- The tick due and not due. -/
theorem test_witness_TimerWritesThenTick :
    start.halt = .running ∧ { start with tick := 999 }.tick + 1 = start.params.timerDivisor ∧
    start.tick + 1 ≠ start.params.timerDivisor := ⟨rfl, by decide, by decide⟩

theorem test_witness_RegistersWrittenOnlyWhereNamed :
    (∃ t, exec (.addReg 0x1 0x2) start = .next t) ∧ (Instr.addReg 0x1 0x2).writesReg 0x3 = false ∧
    ((0x3 : RegNum) = vF → (Instr.addReg 0x1 0x2).setsFlag = false) ∧
    (Instr.addImm 0x1 0x2).writesReg vF = false ∧ (Instr.addImm 0x1 0x2).setsFlag = false :=
  ⟨⟨_, rfl⟩, by decide, by decide, by decide, by decide⟩

theorem test_witness_StateWrittenOnlyByItsInstructions :
    (∃ t, exec (.ldImm 0x1 0x2) start = .next t) ∧ (Instr.ldImm 0x1 0x2).movesPc = false ∧
    (∀ n, Instr.ldImm 0x1 0x2 ≠ .ldI n) ∧
    (∀ x, Instr.ldImm 0x1 0x2 ≠ .bcd x) ∧ Instr.ldImm 0x1 0x2 ≠ .cls ∧ Instr.ldImm 0x1 0x2 ≠ .ret :=
  ⟨⟨_, rfl⟩, rfl, by simp, by simp, by simp, by simp⟩

theorem test_witness_SoundTimerAndTickAreUnreadable :
    (∀ x, Instr.ldDT 0x1 ≠ .ldST x) ∧ Instr.ldST 0x1 = .ldST 0x1 := ⟨by simp, rfl⟩

theorem test_witness_InputsReadOnlyByTheirInstructions :
    (∀ x, Instr.rnd 0x1 0x2 ≠ .skp x) ∧ (∀ x, Instr.rnd 0x1 0x2 ≠ .sknp x) ∧ (∀ x, Instr.rnd 0x1 0x2 ≠ .ldKey x) ∧
    (∀ x kk, Instr.skp 0x1 ≠ .rnd x kk) := by simp

theorem test_witness_HostTouchesOnlyTheCells : start.hostQueue = idle :: [idle, idle] := rfl

theorem test_witness_FrameCellKeepsTheLatest :
    { start with update := some blankDisplay, frame := ⟨lit [(1, 1)], false⟩ }.update = some blankDisplay := rfl

theorem test_witness_ParkedCoreStaysParked :
    (placed 0x202 0x1202 start).Enabled ∧ (placed 0x202 0x1202 start).ParkedAt 0x202 ∧
    (placed 0x202 0x1202 start).tick = 0 := ⟨⟨rfl, rfl, rfl, rfl⟩, ⟨rfl, by decide, rfl⟩, rfl⟩

theorem test_witness_ParkedTimersDecayOncePerDivisor :
    (placed 0x202 0x1202 { start with dt := 5, st := 2, params := cfg 2 }).Enabled ∧
    (placed 0x202 0x1202 { start with dt := 5, st := 2, params := cfg 2 }).ParkedAt 0x202 ∧
    (placed 0x202 0x1202 { start with dt := 5, st := 2, params := cfg 2 }).tick = 0 :=
  ⟨⟨rfl, by decide, rfl, rfl⟩, ⟨rfl, by decide, rfl⟩, rfl⟩

end Sys2Proof.Tests
end

section
/-! SUPPORT. The inversion lemma of `exec` by what an instruction reaches, and the frame of the whole state it gives
(10_state.md section 3). -/

namespace Sys2Proof.Machine

/-- The nine ways an instruction can change the state. Each names what may have changed and, but for the general registers,
the instructions that change it so. -/
inductive Effect (s t : State) : Instr → Prop where
  /-- A change of general registers, VF among them, or none. -/
  | regs {i} (only : OnlyRegs s t) : Effect s t i
  /-- A jump, a skip, or `Fx0A` polling again (R14). -/
  | pc {i} (moves : i.movesPc = true) (only : OnlyPc s t) : Effect s t i
  /-- The pop of `00EE`, or the push of `2nnn` on a stack with room (R103, R105). -/
  | pcStack {i} (isStack : i = .ret ∨ ∃ n, i = .call n) (only : OnlyPcStack s t) : Effect s t i
  /-- `Annn`, `Fx1E` and `Fx29` (R150 to R152). -/
  | index {i} (isIndex : (∃ n, i = .ldI n) ∨ (∃ x, i = .addI x) ∨ ∃ x, i = .ldF x) (only : OnlyIndex s t) : Effect s t i
  /-- The stores of `Fx33` and `Fx55` (R153, R154). -/
  | mem {i} (isStore : (∃ x, i = .bcd x) ∨ ∃ x, i = .store x) (only : OnlyMem s t) : Effect s t i
  /-- The display and the update of `00E0` and `Dxyn`, with VF for the draw (R171, R172). -/
  | display {i} (isDisplay : i = .cls ∨ ∃ x y n, i = .drw x y n)
      (only : t = { s with v := t.v, disp := t.disp, update := t.update }) : Effect s t i
  /-- `Fx15` (R194). -/
  | dt {x} (only : t = { s with dt := t.dt }) : Effect s t (.ldDT x)
  /-- `Fx18` (R195). -/
  | st {x} (only : t = { s with st := t.st }) : Effect s t (.ldST x)
  /-- A fatal condition: `2nnn` on a full stack, `Ex9E` or `ExA1` with Vx above 15 (R210, R213, R214). -/
  | halt {i} (isFatal : (∃ n, i = .call n) ∨ (∃ x, i = .skp x) ∨ ∃ x, i = .sknp x) (only : OnlyHalt s t) : Effect s t i

/-- The key test reaches `pc`, or the halt latch where the register selects no key. -/
theorem skipOnKey_only (s : State) (x : RegNum) (wanted : Bool) :
    ∃ t, s.skipOnKey x wanted = .next t ∧ (OnlyPc s t ∨ OnlyHalt s t) := by
  obtain ⟨b, -, hskip⟩ | ⟨-, hfatal⟩ := skipOnKey_cases s x wanted
  · exact ⟨_, hskip, .inl (onlyPc_skipIf s _)⟩
  · obtain ⟨t, hnext, -, honly⟩ := raiseFatal_next (.keyIndexOutOfRange (s.reg x)) s
    exact ⟨t, hfatal.trans hnext, .inr honly⟩

/-- A call pushes and jumps, or on a full stack sets the halt latch. -/
theorem execCall_only (n : Addr) (s : State) :
    ∃ t, execCall n s = .next t ∧ (OnlyPcStack s t ∨ OnlyHalt s t) := by
  unfold execCall
  split
  · obtain ⟨t, hnext, -, honly⟩ := raiseFatal_next (.stackOverflow s.pc) s
    exact ⟨t, hnext, .inr honly⟩
  · exact ⟨_, rfl, .inl ⟨rfl, fun _ => rfl⟩⟩

/-- Every instruction answers a next state, changed in one of the nine ways. -/
theorem exec_next_effect (i : Instr) (s : State) : ∃ t, exec i s = .next t ∧ Effect s t i := by
  cases i
  case ldImm | addImm | ldReg | orReg | andReg | xorReg | rnd | ldVxDT =>
    exact ⟨_, rfl, .regs (onlyRegs_setReg _ _ _)⟩
  case addReg | sub | subn =>
    exact ⟨_, rfl, .regs ((onlyRegs_setReg _ _ _).trans (onlyRegs_setReg _ _ _))⟩
  case shr | shl => exact ⟨_, rfl, .regs (onlyRegs_shiftReg _ _ _ _)⟩
  case load => exact ⟨_, rfl, .regs (onlyRegs_loadRegs _ _)⟩
  case jp | jpV0 => exact ⟨_, rfl, .pc rfl (onlyPc_setPc _ _)⟩
  case seImm | sneImm | seReg | sneReg => exact ⟨_, rfl, .pc rfl (onlyPc_skipIf _ _)⟩
  case ldKey =>
    refine ⟨_, rfl, ?_⟩
    split
    · exact .pc rfl (onlyPc_setPc _ _)
    · exact .regs (onlyRegs_setReg _ _ _)
  case skp x =>
    obtain ⟨t, hnext, honly⟩ := skipOnKey_only s x true
    exact ⟨t, hnext, honly.elim (.pc rfl) (.halt (.inr (.inl ⟨x, rfl⟩)))⟩
  case sknp x =>
    obtain ⟨t, hnext, honly⟩ := skipOnKey_only s x false
    exact ⟨t, hnext, honly.elim (.pc rfl) (.halt (.inr (.inr ⟨x, rfl⟩)))⟩
  case ret => exact ⟨_, rfl, .pcStack (.inl rfl) ⟨rfl, fun _ => rfl⟩⟩
  case call n =>
    obtain ⟨t, hnext, honly⟩ := execCall_only n s
    exact ⟨t, hnext, honly.elim (.pcStack (.inr ⟨n, rfl⟩)) (.halt (.inl ⟨n, rfl⟩))⟩
  case ldI n => exact ⟨_, rfl, .index (.inl ⟨n, rfl⟩) ⟨rfl, fun _ => rfl⟩⟩
  case addI x => exact ⟨_, rfl, .index (.inr (.inl ⟨x, rfl⟩)) ⟨rfl, fun _ => rfl⟩⟩
  case ldF x => exact ⟨_, rfl, .index (.inr (.inr ⟨x, rfl⟩)) ⟨rfl, fun _ => rfl⟩⟩
  case bcd x => exact ⟨_, rfl, .mem (.inl ⟨x, rfl⟩) (writeBytes_eq _ _ _)⟩
  case store x => exact ⟨_, rfl, .mem (.inr ⟨x, rfl⟩) (writeBytes_eq _ _ _)⟩
  case cls => exact ⟨_, rfl, .display (.inl rfl) rfl⟩
  case drw x y n => exact ⟨_, rfl, .display (.inr ⟨x, y, n, rfl⟩) rfl⟩
  case ldDT => exact ⟨_, rfl, .dt rfl⟩
  case ldST => exact ⟨_, rfl, .st rfl⟩

/-- The inversion of `exec`: what it answers is the state before, changed in one of the nine ways. -/
theorem exec_effect {i : Instr} {s t : State} (h : exec i s = .next t) : Effect s t i := by
  obtain ⟨u, hu, heffect⟩ := exec_next_effect i s
  cases hu.symm.trans h
  exact heffect

/-- Settles O54: each of the nine ways of `Effect` is an equation for the whole state, and the instructions it names are
those a clause of the statement sets aside. -/
theorem stateWrittenOnlyByItsInstructions : Obligations.StateWrittenOnlyByItsInstructions := by
  unfold Obligations.StateWrittenOnlyByItsInstructions
  intro i s t h
  cases exec_effect h with
  | regs only => obtain ⟨heq, -⟩ := only; rw [heq]; simp [sameMemory_of_eq]
  | pc moves only => obtain ⟨heq, -⟩ := only; rw [heq]; simp [moves, sameMemory_of_eq]
  | pcStack isStack only =>
    obtain ⟨heq, -⟩ := only; rw [heq]
    obtain rfl | ⟨n, rfl⟩ := isStack <;> simp [Instr.movesPc, sameMemory_of_eq]
  | index isIndex only =>
    obtain ⟨heq, -⟩ := only; rw [heq]
    obtain ⟨n, rfl⟩ | ⟨x, rfl⟩ | ⟨x, rfl⟩ := isIndex <;> simp [sameMemory_of_eq]
  | mem isStore only =>
    rw [show t = { s with mem := t.mem } from only]
    obtain ⟨x, rfl⟩ | ⟨x, rfl⟩ := isStore <;> simp
  | display isDisplay only =>
    rw [only]
    obtain rfl | ⟨x, y, n, rfl⟩ := isDisplay <;> simp [sameMemory_of_eq]
  | dt only => rw [only]; simp [sameMemory_of_eq]
  | st only => rw [only]; simp [sameMemory_of_eq]
  | halt isFatal only =>
    obtain ⟨heq, -⟩ := only; rw [heq]
    obtain ⟨n, rfl⟩ | ⟨x, rfl⟩ | ⟨x, rfl⟩ := isFatal <;> simp [sameMemory_of_eq]

end Sys2Proof.Machine
end

section
/-! SUPPORT. The step and the flow (40_step_and_flow.md): every enabled step has an execute phase, which ends on a core that
goes on or in a fatal condition, and the meanings of the NOP class, `00EE`, `1nnn` and `Bnnn`. -/

namespace Sys2Proof.Machine

/-! ### The execute phase (R100, R101) -/

/-- An instruction changes neither the tick counter nor the parameters (R5, R19). -/
theorem exec_tick_params {i : Instr} {s t : State} (h : exec i s = .next t) :
    t.tick = s.tick ∧ t.params = s.params := by
  obtain ⟨-, -, -, -, -, -, -, -, htick, -, -, -, -, -, -, hparams, -⟩ :=
    stateWrittenOnlyByItsInstructions i s t h
  exact ⟨htick, hparams⟩

/-- `Fx0A` never sets the halt latch (R192). -/
theorem exec_ldKey_halt {x : RegNum} {s t : State} (h : exec (.ldKey x) s = .next t) : t.halt = s.halt := by
  obtain ⟨-, -, -, -, -, -, -, hhalt, -⟩ := stateWrittenOnlyByItsInstructions _ s t h
  exact hhalt nofun nofun nofun

/-- Every fetched word has an execute phase. -/
theorem exists_executes (s : State) : ∃ u, Executes s u := by
  by_cases hnop : s.fetchWord ∈ s.params.nopSet
  · exact ⟨_, .nop hnop⟩
  · cases hdecode : decode s.fetchWord with
    | none => exact ⟨_, .illegal hnop hdecode⟩
    | some i =>
      obtain ⟨u, hnext, -⟩ := exec_total i s.openStep.advance
      exact ⟨u, .instr i u hnop hdecode hnext⟩

/-- The two ways an execute phase ends (R101): the core goes on, or a fatal condition has set the halt latch and left the
rest as the advance did. Neither touches the tick counter or the parameters. -/
theorem Executes.goesOn_or_fatal {s u : State} (h : Executes s u) :
    (u.halt = s.halt ∧ u.tick = s.tick ∧ u.params = s.params) ∨
      ∃ c, u = { s.openStep.advance with halt := .halted c } := by
  cases h with
  | nop => left; simp
  | illegal => exact .inr ⟨_, rfl⟩
  | instr i u _ _ hexec =>
    obtain ⟨v, hnext, hhalt⟩ := exec_total i s.openStep.advance
    obtain rfl : v = u := by simpa [hnext] using hexec
    refine hhalt.imp_left fun hkept => ?_
    obtain ⟨htick, hparams⟩ := exec_tick_params hexec
    simp [hkept, htick, hparams]

/-- A word of `Fx0A`, run as such or as a NOP word, leaves the core going on. -/
theorem Executes.halt_of_ldKey {s u : State} {x : RegNum} (h : Executes s u)
    (hkey : decode s.fetchWord = some (.ldKey x)) : u.halt = s.halt := by
  cases h with
  | nop => simp
  | illegal _ hdecode => simp [hdecode] at hkey
  | instr i _ _ hdecode hexec =>
    obtain rfl : i = .ldKey x := by simpa [hdecode] using hkey
    simpa using exec_ldKey_halt hexec

/-- Whether the divisor is reached depends on the tick counter and the parameters alone (R219). -/
theorem tickDue_congr {s u : State} (htick : u.tick = s.tick) (hparams : u.params = s.params) :
    u.tickDue = s.tickDue := by simp [State.tickDue, htick, hparams]

/-! ### The step (R101, R102) -/

/-- Settles O13: the execute phase goes on, and the end of the iteration ticks and writes the buzzer flag, or it is fatal, and
the end of the iteration does nothing. -/
theorem enabledStepCompletesOrHalts : Obligations.EnabledStepCompletesOrHalts := by
  unfold Obligations.EnabledStepCompletesOrHalts
  intro s hs
  obtain ⟨u, hu⟩ := exists_executes s
  refine ⟨u.endStep, step_of_executes hs hu, ?_, fun x hkey => ?_⟩
  · obtain ⟨hhalt, htick, hparams⟩ | ⟨c, rfl⟩ := hu.goesOn_or_fatal
    · have hrun : u.halt = .running := hhalt.trans hs.running
      obtain ⟨hticked, -, -, hbuzzer⟩ := endStep_timers hrun
      exact .inl ⟨by simp [hrun], by simp [hticked, tickDue_congr htick hparams, htick], hbuzzer⟩
    · rw [endStep_halted rfl]
      refine .inr ⟨c, rfl, ?_, rfl, by simp, openStep_consumed s⟩
      have hready : s.openStep.ready = s.ready := by rw [openStep_ready s hs.isReady, hs.isReady]
      rw [prepared_eq, hready]
  · rw [endStep_halt, hu.halt_of_ldKey hkey, hs.running]

/-- Settles O8: the execute phase of a NOP word is the advanced state itself, so the step is the advance and the end of an
iteration without an update. -/
theorem nopWordOnlyAdvances : Obligations.NopWordOnlyAdvances := by
  unfold Obligations.NopWordOnlyAdvances
  intro s hs hnop
  have hrun : s.openStep.advance.halt = .running := by simp [hs.running]
  have hdue : s.openStep.advance.tickDue = s.tickDue := tickDue_congr (by simp) (by simp)
  obtain ⟨htick, hdt, hst, -⟩ := endStep_timers hrun
  obtain ⟨hdata, hconsumed⟩ := endStep_frame_of_none (t := s.openStep.advance) (by simp)
  refine ⟨_, step_of_executes hs (.nop hnop), by simp, by simp, by simp, by simp, by simp,
    sameMemory_of_eq (by simp) (by simp), by simp, by simp [hs.running], by simp [hdata],
    fun h => hconsumed (openStep_consumed s h), by simp [htick, hdue], by simp [hdt, hdue], by simp [hst, hdue]⟩

/-! ### Flow (R103, R104, R106) -/

theorem decode_wordNNN_jp (nnn : Addr) : decode (wordNNN 0x1 nnn) = some (.jp nnn) := by simp [decode]

theorem decode_wordNNN_jpV0 (nnn : Addr) : decode (wordNNN 0xB nnn) = some (.jpV0 nnn) := by simp [decode]

/-- A return answers the state with the stack popped and `pc` at the popped address (R103). -/
theorem exec_ret (s : State) : exec .ret s = .next (s.dropTop.setPc s.topAddr) := rfl

theorem topAddr_of_nil {s : State} (h : s.stack = []) : s.topAddr = 0x000#12 := by simp [State.topAddr, h]

theorem topAddr_of_cons {s : State} {a : Addr} {rest : List Addr} (h : s.stack = a :: rest) : s.topAddr = a := by
  simp [State.topAddr, h]

/-- Settles O23: the address popped from an empty and from a nonempty stack (R17). -/
theorem retPopsOrGoesToZero : Obligations.RetPopsOrGoesToZero := by
  unfold Obligations.RetPopsOrGoesToZero
  refine ⟨by decide, fun s => ⟨_, exec_ret s, ⟨rfl, fun _ => rfl⟩, fun hempty => ?_, fun a rest hcons => ?_⟩⟩
  · simp [topAddr_of_nil hempty, hempty]
  · simp [topAddr_of_cons hcons, hcons]

/-- Settles O24: the jump is one write of `pc`. -/
theorem jumpSetsPc : Obligations.JumpSetsPc := by
  unfold Obligations.JumpSetsPc
  exact fun nnn s => ⟨decode_wordNNN_jp nnn, s.setPc nnn, rfl, rfl, onlyPc_setPc s nnn⟩

/-- Settles O25: the jump is one write of `pc`, whose 12-bit sum is that of the naturals mod 4096. -/
theorem indexedJumpAddsV0 : Obligations.IndexedJumpAddsV0 := by
  unfold Obligations.IndexedJumpAddsV0
  intro nnn s
  refine ⟨decode_wordNNN_jpV0 nnn, s.setPc (nnn + zext12 (s.reg 0x0#4)), rfl, ?_, onlyPc_setPc s _⟩
  rw [setPc_pc, BitVec.toNat_add, zext12_toNat]

end Sys2Proof.Machine
end

section
/-! SUPPORT. The instructions that write Vx alone and no flag (42_alu.md R130 to R135, R141): their opcodes, their effect as one
register write, and what one register write leaves. -/

namespace Sys2Proof.Machine

/-! ### The opcodes -/

theorem decode_wordXKK_ldImm (x : RegNum) (kk : Byte) : decode (wordXKK 0x6 x kk) = some (.ldImm x kk) := by
  simp [decode]

theorem decode_wordXKK_addImm (x : RegNum) (kk : Byte) : decode (wordXKK 0x7 x kk) = some (.addImm x kk) := by
  simp [decode]

theorem decode_wordXKK_rnd (x : RegNum) (kk : Byte) : decode (wordXKK 0xC x kk) = some (.rnd x kk) := by
  simp [decode]

/-- Major digit 8 hands the word to the family that the low nibble selects in (R75). -/
theorem decode_wordXYN_8 (x y : RegNum) (n : Nibble) :
    decode (wordXYN 0x8#4 x y n) = decodeFamily8 (wordXYN 0x8#4 x y n) := by
  simp [decode]

theorem decode_wordXYN_ldReg (x y : RegNum) : decode (wordXYN 0x8 x y 0x0) = some (.ldReg x y) := by
  simp [decode_wordXYN_8, decodeFamily8]

theorem decode_wordXYN_orReg (x y : RegNum) : decode (wordXYN 0x8 x y 0x1) = some (.orReg x y) := by
  simp [decode_wordXYN_8, decodeFamily8]

theorem decode_wordXYN_andReg (x y : RegNum) : decode (wordXYN 0x8 x y 0x2) = some (.andReg x y) := by
  simp [decode_wordXYN_8, decodeFamily8]

theorem decode_wordXYN_xorReg (x y : RegNum) : decode (wordXYN 0x8 x y 0x3) = some (.xorReg x y) := by
  simp [decode_wordXYN_8, decodeFamily8]

/-! ### The effects: one register write each -/

theorem exec_ldImm (x : RegNum) (kk : Byte) (s : State) : exec (.ldImm x kk) s = .next (s.setReg x kk) := rfl

theorem exec_addImm (x : RegNum) (kk : Byte) (s : State) :
    exec (.addImm x kk) s = .next (s.setReg x (s.reg x + kk)) := rfl

theorem exec_ldReg (x y : RegNum) (s : State) : exec (.ldReg x y) s = .next (s.setReg x (s.reg y)) := rfl

theorem exec_orReg (x y : RegNum) (s : State) :
    exec (.orReg x y) s = .next (s.setReg x (s.reg x ||| s.reg y)) := rfl

theorem exec_andReg (x y : RegNum) (s : State) :
    exec (.andReg x y) s = .next (s.setReg x (s.reg x &&& s.reg y)) := rfl

theorem exec_xorReg (x y : RegNum) (s : State) :
    exec (.xorReg x y) s = .next (s.setReg x (s.reg x ^^^ s.reg y)) := rfl

theorem exec_rnd (x : RegNum) (kk : Byte) (s : State) :
    exec (.rnd x kk) s = .next (s.setReg x (s.rand &&& kk)) := rfl

/-- An instruction whose effect is one register write gives that register the value, leaves the other fifteen, and touches
nothing but registers. -/
theorem writes_one_reg {i : Instr} {s : State} {x : RegNum} {b : Byte} (h : exec i s = .next (s.setReg x b)) :
    ∃ t, exec i s = .next t ∧ (∀ r, t.reg r = if r = x then b else s.reg r) ∧ OnlyRegs s t :=
  ⟨_, h, fun r => reg_setReg s x r b, onlyRegs_setReg s x b⟩

/-! ### The statements -/

/-- Settles O32: each load is one write of Vx. -/
theorem loadsWriteVx : Obligations.LoadsWriteVx := by
  unfold Obligations.LoadsWriteVx
  exact ⟨fun x kk s => ⟨decode_wordXKK_ldImm x kk, writes_one_reg (exec_ldImm x kk s)⟩,
    fun x y s => ⟨decode_wordXYN_ldReg x y, writes_one_reg (exec_ldReg x y s)⟩⟩

/-- Settles O33: the addition is one write of Vx, whose 8-bit sum is that of the naturals mod 256. -/
theorem addImmediateWrapsWithoutFlag : Obligations.AddImmediateWrapsWithoutFlag := by
  unfold Obligations.AddImmediateWrapsWithoutFlag
  intro x kk s
  obtain ⟨t, hnext, hreg, honly⟩ := writes_one_reg (exec_addImm x kk s)
  refine ⟨decode_wordXKK_addImm x kk, t, hnext, ?_, fun r hr => ?_, honly⟩
  · rw [hreg, if_pos rfl, BitVec.toNat_add]
  · rw [hreg, if_neg hr]

/-- Settles O34: each of the three is one write of Vx. -/
theorem logicWithoutFlag : Obligations.LogicWithoutFlag := by
  unfold Obligations.LogicWithoutFlag
  exact fun x y s => ⟨⟨decode_wordXYN_orReg x y, writes_one_reg (exec_orReg x y s)⟩,
    ⟨decode_wordXYN_andReg x y, writes_one_reg (exec_andReg x y s)⟩,
    ⟨decode_wordXYN_xorReg x y, writes_one_reg (exec_xorReg x y s)⟩⟩

/-- A byte masked by `kk` has no bit outside `kk`. -/
theorem masked_and_not_mask (b kk : Byte) : b &&& kk &&& ~~~kk = 0#8 := by
  rw [BitVec.and_assoc, BitVec.and_not_self]; exact BitVec.and_zero

/-- Settles O38: the draw is one write of Vx with the step's random byte, masked. -/
theorem randomIsMasked : Obligations.RandomIsMasked := by
  unfold Obligations.RandomIsMasked
  intro x kk s
  obtain ⟨t, hnext, hreg, honly⟩ := writes_one_reg (exec_rnd x kk s)
  refine ⟨decode_wordXKK_rnd x kk, t, hnext, hreg, ?_, honly⟩
  rw [hreg, if_pos rfl, masked_and_not_mask]

end Sys2Proof.Machine
end

section
/-! SUPPORT. The instructions that write `I` alone (43_index_memory.md R150, R151): their opcodes, and their effect as one write
of the index register. -/

namespace Sys2Proof.Machine

/-! ### The opcodes -/

theorem decode_wordNNN_ldI (nnn : Addr) : decode (wordNNN 0xA nnn) = some (.ldI nnn) := by simp [decode]

/-- Major digit F hands the word to the family that the low byte selects in (R75). -/
theorem decode_wordXKK_F (x : RegNum) (kk : Byte) :
    decode (wordXKK 0xF#4 x kk) = decodeFamilyF (wordXKK 0xF#4 x kk) := by
  simp [decode]

theorem decode_wordXKK_addI (x : RegNum) : decode (wordXKK 0xF x 0x1E) = some (.addI x) := by
  simp [decode_wordXKK_F, decodeFamilyF]

/-! ### The effects: one write of `I` each -/

/-- A write of `I` keeps everything else. -/
theorem onlyIndex_setIndex (s : State) (a : Addr) : OnlyIndex s (s.setIndex a) := ⟨rfl, fun _ => rfl⟩

theorem exec_ldI (nnn : Addr) (s : State) : exec (.ldI nnn) s = .next (s.setIndex nnn) := rfl

theorem exec_addI (x : RegNum) (s : State) :
    exec (.addI x) s = .next (s.setIndex (s.index + zext12 (s.reg x))) := rfl

/-! ### The statement -/

/-- Settles O39: each is one write of `I`, and the 12-bit sum is that of the naturals mod 4096. -/
theorem indexLoadAndAdd : Obligations.IndexLoadAndAdd := by
  unfold Obligations.IndexLoadAndAdd
  refine ⟨fun nnn s => ⟨decode_wordNNN_ldI nnn, _, exec_ldI nnn s, setIndex_index s nnn, onlyIndex_setIndex s nnn⟩,
    fun x s => ⟨decode_wordXKK_addI x, _, exec_addI x s, ?_, onlyIndex_setIndex s _⟩⟩
  rw [setIndex_index, BitVec.toNat_add, zext12_toNat]

end Sys2Proof.Machine
end

section
/-! SUPPORT. The display update (44_display.md R170, R171): the clear, and which execute phases return an update. -/

namespace Sys2Proof.Machine

/-! ### The instructions -/

/-- The clear answers the blank display and returns it as the update (R171). -/
theorem exec_cls (s : State) : exec .cls s = .next (s.setDisp blankDisplay).emitUpdate := rfl

/-- The draw answers the drawn display and returns it as the update, drawn or not (R172, R170). -/
theorem exec_drw (x y : RegNum) (n : Nibble) (s : State) :
    exec (.drw x y n) s = .next
      (((s.setFlag (if (s.drawn x y n).hit then 1#8 else 0#8)).setDisp (s.drawn x y n).disp).emitUpdate) := rfl

/-- `00E0` and `Dxyn` return the whole display as it then stands (R170). -/
theorem exec_update_of_display {i : Instr} {s t : State} (hi : i = .cls ∨ ∃ x y n, i = .drw x y n)
    (h : exec i s = .next t) : t.update = some t.disp := by
  obtain rfl | ⟨x, y, n, rfl⟩ := hi
  · cases (exec_cls s).symm.trans h; simp
  · cases (exec_drw x y n s).symm.trans h; simp

/-- Every other instruction leaves the update as it was (R170). -/
theorem exec_update_of_not_display {i : Instr} {s t : State} (hi : ¬ (i = .cls ∨ ∃ x y n, i = .drw x y n))
    (h : exec i s = .next t) : t.update = s.update := by
  obtain ⟨-, -, -, hdisplay, -⟩ := stateWrittenOnlyByItsInstructions i s t h
  obtain ⟨-, hupdate⟩ := hdisplay (fun hcls => hi (.inl hcls)) fun x y n hdrw => hi (.inr ⟨x, y, n, hdrw⟩)
  exact hupdate

/-! ### The execute phase -/

/-- A word that decodes to `i` runs a display instruction exactly when it is no NOP word and `i` is one of the two. -/
theorem runsDisplayInstruction_iff {s : State} {i : Instr} (hnop : s.fetchWord ∉ s.params.nopSet)
    (hdecode : decode s.fetchWord = some i) :
    s.RunsDisplayInstruction ↔ i = .cls ∨ ∃ x y n, i = .drw x y n := by
  simp [State.RunsDisplayInstruction, hnop, hdecode]

/-- An execute phase that runs `00E0` or `Dxyn` returns the whole display. -/
theorem Executes.update_of_display {s u : State} (h : Executes s u) (hd : s.RunsDisplayInstruction) :
    u.update = some u.disp := by
  cases h with
  | nop hnop => exact absurd hnop hd.1
  | instr i _ hnop hdecode hexec =>
    exact exec_update_of_display ((runsDisplayInstruction_iff hnop hdecode).1 hd) hexec
  | illegal _ hdecode => simp [State.RunsDisplayInstruction, hdecode] at hd

/-- Any other execute phase, that of a NOP word or of an illegal opcode among them, returns no update: none was there when
the step was opened. -/
theorem Executes.update_of_not_display {s u : State} (h : Executes s u) (hd : ¬ s.RunsDisplayInstruction) :
    u.update = none := by
  cases h with
  | nop => simp
  | instr i _ hnop hdecode hexec =>
    rw [exec_update_of_not_display (mt (runsDisplayInstruction_iff hnop hdecode).2 hd) hexec]; simp
  | illegal => exact openStep_update s

/-! ### The statements -/

/-- Settles O49: the end of the iteration keeps the update and the display of the execute phase. -/
theorem updateExactlyFromDisplayInstructions : Obligations.UpdateExactlyFromDisplayInstructions := by
  unfold Obligations.UpdateExactlyFromDisplayInstructions
  intro s hs
  obtain ⟨u, hu⟩ := exists_executes s
  refine ⟨u.endStep, step_of_executes hs hu, fun hd => ?_, fun hd => ?_⟩
  · simpa using hu.update_of_display hd
  · simpa using hu.update_of_not_display hd

/-- Settles O46: the clear is a write of the blank display, emitted whatever the display was. -/
theorem clearBlanksAndUpdates : Obligations.ClearBlanksAndUpdates := by
  unfold Obligations.ClearBlanksAndUpdates
  exact ⟨by decide, fun s =>
    ⟨_, exec_cls s, fun x y _ _ => pixelAt_blank x y, rfl, rfl, sameMemory_of_eq rfl rfl⟩⟩

end Sys2Proof.Machine
end

section
/-! SUPPORT. The read of the delay timer (45_key_timer.md R193): its opcode, its effect as one register write, and the tick after
it. -/

namespace Sys2Proof.Machine

theorem decode_wordXKK_ldVxDT (x : RegNum) : decode (wordXKK 0xF x 0x07) = some (.ldVxDT x) := by
  simp [decode_wordXKK_F, decodeFamilyF]

theorem exec_ldVxDT (x : RegNum) (s : State) : exec (.ldVxDT x) s = .next (s.setReg x s.dt) := rfl

/-- The end of a step writes no general register: neither the tick nor the host's turn does (R12). -/
@[simp] theorem reg_endStep (t : State) (r : RegNum) : t.endStep.reg r = t.reg r := reg_of_v (endStep_v t) r

/-- A register write does not show in the timer tick: the tick reads TICK, the divisor and the timers alone (R219). -/
theorem timerTick_setReg (s : State) (r : RegNum) (b : Byte) : (s.setReg r b).timerTick = s.timerTick.setReg r b := rfl

/-- Settles O51: the read is one write of Vx with the DT of the state before; the tick that ends the step acts on that same DT
and on no register. -/
theorem delayTimerRead : Obligations.DelayTimerRead := by
  unfold Obligations.DelayTimerRead
  intro x s
  refine ⟨decode_wordXKK_ldVxDT x, _, exec_ldVxDT x s, fun r => reg_setReg s x r s.dt, onlyRegs_setReg s x s.dt,
    fun hrun => ⟨?_, ?_⟩⟩
  · rw [reg_endStep, reg_setReg_same]
  · obtain ⟨-, hdt, -⟩ := endStep_timers (t := s.setReg x s.dt) hrun
    rw [hdt, timerTick_setReg, setReg_dt]

end Sys2Proof.Machine
end

section
/-! SUPPORT. The writes of the two timers (45_key_timer.md R194, R195): their opcodes, their effect as one timer write, and each
timer after the tick that ends the step (R219). -/

namespace Sys2Proof.Machine

/-! ### The opcodes -/

theorem decode_wordXKK_ldDT (x : RegNum) : decode (wordXKK 0xF x 0x15) = some (.ldDT x) := by
  simp [decode_wordXKK_F, decodeFamilyF]

theorem decode_wordXKK_ldST (x : RegNum) : decode (wordXKK 0xF x 0x18) = some (.ldST x) := by
  simp [decode_wordXKK_F, decodeFamilyF]

/-! ### The effects: one timer write each -/

theorem exec_ldDT (x : RegNum) (s : State) : exec (.ldDT x) s = .next (s.setDt (s.reg x)) := rfl

theorem exec_ldST (x : RegNum) (s : State) : exec (.ldST x) s = .next (s.setSt (s.reg x)) := rfl

/-! ### A timer after the tick -/

/-- The tick is due exactly when `TICK + 1` is the divisor (R219, D14). -/
theorem tickDue_iff (s : State) : s.tickDue = true ↔ s.tick + 1 = s.params.timerDivisor := beq_iff_eq

/-- What the tick makes of the value of a timer, as a natural (R219). -/
theorem ticked_toNat (s : State) (b : Byte) :
    (if s.tickDue then decTimer b else b).toNat =
      if s.tick + 1 = s.params.timerDivisor then b.toNat - 1 else b.toNat := by
  rw [apply_ite BitVec.toNat, decTimer_toNat]
  exact if_congr (tickDue_iff s) rfl rfl

theorem endStep_dt_toNat {t : State} (h : t.halt = .running) :
    t.endStep.dt.toNat = if t.tick + 1 = t.params.timerDivisor then t.dt.toNat - 1 else t.dt.toNat := by
  obtain ⟨-, hdt, -⟩ := endStep_timers h
  rw [hdt, timerTick_dt, ticked_toNat]

theorem endStep_st_toNat {t : State} (h : t.halt = .running) :
    t.endStep.st.toNat = if t.tick + 1 = t.params.timerDivisor then t.st.toNat - 1 else t.st.toNat := by
  obtain ⟨-, -, hst, -⟩ := endStep_timers h
  rw [hst, timerTick_st, ticked_toNat]

/-- The buzzer flag is written after the tick, with the ST the tick left (R231, R233). -/
theorem endStep_buzzer {t : State} (h : t.halt = .running) : t.endStep.buzzer = (t.endStep.st != 0#8) := by
  obtain ⟨-, -, -, hbuzzer⟩ := endStep_timers h
  exact hbuzzer

/-! ### The statement -/

/-- Settles O52: each is one write of its timer, which moves neither TICK nor the divisor; the tick that ends the step takes 1
from the written value when it is due, and the buzzer flag is written after it. -/
theorem timerWritesThenTick : Obligations.TimerWritesThenTick := by
  unfold Obligations.TimerWritesThenTick
  intro x s
  constructor
  · exact ⟨decode_wordXKK_ldDT x, _, exec_ldDT x s, rfl, sameMemory_of_eq rfl rfl,
      fun hrun => endStep_dt_toNat (t := s.setDt (s.reg x)) hrun⟩
  · exact ⟨decode_wordXKK_ldST x, _, exec_ldST x s, rfl, sameMemory_of_eq rfl rfl,
      fun hrun => ⟨endStep_st_toNat (t := s.setSt (s.reg x)) hrun, endStep_buzzer (t := s.setSt (s.reg x)) hrun⟩⟩

end Sys2Proof.Machine
end

section
/-! SUPPORT. Memory at creation (20_memory.md R48 to R52, 70_reset_and_hazards.md R261): what each address reads as before
anything is written. -/

namespace Sys2Proof.Machine

/-! ### The byte of creation -/

theorem creationByte_font (font : Vector Byte 80) (i : Nat) (h : i < 80) : creationByte font (0x050 + i) = font[i] := by
  simp [creationByte, fontBase, h]

theorem creationByte_outside_font (font : Vector Byte 80) (a : Nat) (h : a < 0x050 ∨ 0x09F < a) :
    creationByte font a = 0#8 := by
  have hout : ¬ (fontBase ≤ a ∧ a - fontBase < 80) := by unfold fontBase; omega
  exact dif_neg hout

/-- The address of the font's `i`-th byte does not wrap (R45, R50). -/
theorem fontAddr_toNat (i : Nat) (h : i < 80) : (0x050#12 + BitVec.ofNat 12 i).toNat = 0x050 + i := by
  bv_omega

/-! ### The created state -/

/-- Creation lists no byte of memory, so every address reads as the byte of creation under the font installed. -/
theorem readByte_created (p : Params) (a : Addr) : (State.created p).readByte a = creationByte p.font a.toNat := rfl

/-- Settles O19: a read of the created state is the byte of creation, which is the font's at 0x050 to 0x09F and zero outside. -/
theorem creationInstallsTheFont : Obligations.CreationInstallsTheFont := by
  unfold Obligations.CreationInstallsTheFont
  refine ⟨rfl, fun p => ⟨fun i hi => ?_, fun a ha => ?_⟩⟩
  · rw [readByte_created, fontAddr_toNat i hi, creationByte_font p.font i hi]
  · rw [readByte_created, creationByte_outside_font p.font a.toNat ha]

end Sys2Proof.Machine
end

section
/-! SUPPORT. The encoding (30_encoding.md R70 to R76): the opcode of each instruction decodes to it, a word that decodes is the
opcode of what it decodes to, and the rows and the families of illegal words that follow. -/

namespace Sys2Proof.Machine

/-! ### The opcodes of the instructions that have no lemma yet -/

theorem decode_wordNNN_call (nnn : Addr) : decode (wordNNN 0x2 nnn) = some (.call nnn) := by simp [decode]

theorem decode_wordXKK_seImm (x : RegNum) (kk : Byte) : decode (wordXKK 0x3 x kk) = some (.seImm x kk) := by
  simp [decode]

theorem decode_wordXKK_sneImm (x : RegNum) (kk : Byte) : decode (wordXKK 0x4 x kk) = some (.sneImm x kk) := by
  simp [decode]

theorem decode_wordXYN_seReg (x y : RegNum) : decode (wordXYN 0x5 x y 0x0) = some (.seReg x y) := by simp [decode]

theorem decode_wordXYN_addReg (x y : RegNum) : decode (wordXYN 0x8 x y 0x4) = some (.addReg x y) := by
  simp [decode_wordXYN_8, decodeFamily8]

theorem decode_wordXYN_sub (x y : RegNum) : decode (wordXYN 0x8 x y 0x5) = some (.sub x y) := by
  simp [decode_wordXYN_8, decodeFamily8]

theorem decode_wordXYN_shr (x y : RegNum) : decode (wordXYN 0x8 x y 0x6) = some (.shr x y) := by
  simp [decode_wordXYN_8, decodeFamily8]

theorem decode_wordXYN_subn (x y : RegNum) : decode (wordXYN 0x8 x y 0x7) = some (.subn x y) := by
  simp [decode_wordXYN_8, decodeFamily8]

theorem decode_wordXYN_shl (x y : RegNum) : decode (wordXYN 0x8 x y 0xE) = some (.shl x y) := by
  simp [decode_wordXYN_8, decodeFamily8]

theorem decode_wordXYN_sneReg (x y : RegNum) : decode (wordXYN 0x9 x y 0x0) = some (.sneReg x y) := by simp [decode]

theorem decode_wordXYN_drw (x y : RegNum) (n : Nibble) : decode (wordXYN 0xD x y n) = some (.drw x y n) := by
  simp [decode]

/-- Major digit E hands the word to the family that the low byte selects in (R75). -/
theorem decode_wordXKK_E (x : RegNum) (kk : Byte) :
    decode (wordXKK 0xE#4 x kk) = decodeFamilyE (wordXKK 0xE#4 x kk) := by
  simp [decode]

theorem decode_wordXKK_skp (x : RegNum) : decode (wordXKK 0xE x 0x9E) = some (.skp x) := by
  simp [decode_wordXKK_E, decodeFamilyE]

theorem decode_wordXKK_sknp (x : RegNum) : decode (wordXKK 0xE x 0xA1) = some (.sknp x) := by
  simp [decode_wordXKK_E, decodeFamilyE]

theorem decode_wordXKK_ldKey (x : RegNum) : decode (wordXKK 0xF x 0x0A) = some (.ldKey x) := by
  simp [decode_wordXKK_F, decodeFamilyF]

theorem decode_wordXKK_ldF (x : RegNum) : decode (wordXKK 0xF x 0x29) = some (.ldF x) := by
  simp [decode_wordXKK_F, decodeFamilyF]

theorem decode_wordXKK_bcd (x : RegNum) : decode (wordXKK 0xF x 0x33) = some (.bcd x) := by
  simp [decode_wordXKK_F, decodeFamilyF]

theorem decode_wordXKK_store (x : RegNum) : decode (wordXKK 0xF x 0x55) = some (.store x) := by
  simp [decode_wordXKK_F, decodeFamilyF]

theorem decode_wordXKK_load (x : RegNum) : decode (wordXKK 0xF x 0x65) = some (.load x) := by
  simp [decode_wordXKK_F, decodeFamilyF]

/-! ### Decode after encode -/

/-- Settles O1: the decode equation of each of the 34 opcodes. -/
theorem decodeOfEncodeIsTheInstruction : Obligations.DecodeOfEncodeIsTheInstruction := by
  unfold Obligations.DecodeOfEncodeIsTheInstruction
  intro i
  cases i with
  | cls => decide
  | ret => decide
  | jp nnn => exact decode_wordNNN_jp nnn
  | call nnn => exact decode_wordNNN_call nnn
  | seImm x kk => exact decode_wordXKK_seImm x kk
  | sneImm x kk => exact decode_wordXKK_sneImm x kk
  | seReg x y => exact decode_wordXYN_seReg x y
  | ldImm x kk => exact decode_wordXKK_ldImm x kk
  | addImm x kk => exact decode_wordXKK_addImm x kk
  | ldReg x y => exact decode_wordXYN_ldReg x y
  | orReg x y => exact decode_wordXYN_orReg x y
  | andReg x y => exact decode_wordXYN_andReg x y
  | xorReg x y => exact decode_wordXYN_xorReg x y
  | addReg x y => exact decode_wordXYN_addReg x y
  | sub x y => exact decode_wordXYN_sub x y
  | shr x y => exact decode_wordXYN_shr x y
  | subn x y => exact decode_wordXYN_subn x y
  | shl x y => exact decode_wordXYN_shl x y
  | sneReg x y => exact decode_wordXYN_sneReg x y
  | ldI nnn => exact decode_wordNNN_ldI nnn
  | jpV0 nnn => exact decode_wordNNN_jpV0 nnn
  | rnd x kk => exact decode_wordXKK_rnd x kk
  | drw x y n => exact decode_wordXYN_drw x y n
  | skp x => exact decode_wordXKK_skp x
  | sknp x => exact decode_wordXKK_sknp x
  | ldVxDT x => exact decode_wordXKK_ldVxDT x
  | ldKey x => exact decode_wordXKK_ldKey x
  | ldDT x => exact decode_wordXKK_ldDT x
  | ldST x => exact decode_wordXKK_ldST x
  | addI x => exact decode_wordXKK_addI x
  | ldF x => exact decode_wordXKK_ldF x
  | bcd x => exact decode_wordXKK_bcd x
  | store x => exact decode_wordXKK_store x
  | load x => exact decode_wordXKK_load x

/-! ### Encode after decode -/

/-! A word whose selecting fields are known is the word rebuilt from them. -/

theorem wordNNN_of_major {op : Word} {m : Nibble} (hm : majorOf op = m) : wordNNN m (nnnOf op) = op := by
  rw [← hm, wordNNN_fields]

theorem wordXKK_of_major {op : Word} {m : Nibble} (hm : majorOf op = m) : wordXKK m (xOf op) (kkOf op) = op := by
  rw [← hm, wordXKK_fields]

theorem wordXKK_of_major_byte {op : Word} {m : Nibble} {kk : Byte} (hm : majorOf op = m) (hkk : kkOf op = kk) :
    wordXKK m (xOf op) kk = op := by
  rw [← hkk, wordXKK_of_major hm]

theorem wordXYN_of_major {op : Word} {m : Nibble} (hm : majorOf op = m) :
    wordXYN m (xOf op) (yOf op) (nOf op) = op := by
  rw [← hm, wordXYN_fields]

theorem wordXYN_of_major_low {op : Word} {m n : Nibble} (hm : majorOf op = m) (hn : nOf op = n) :
    wordXYN m (xOf op) (yOf op) n = op := by
  rw [← hn, wordXYN_of_major hm]

theorem encode_of_decodeFamily0 {op : Word} {i : Instr} (h : decodeFamily0 op = some i) : encode i = op := by
  unfold decodeFamily0 at h
  split at h
  · next hcls => cases h; exact hcls.symm
  · split at h
    · next hret => cases h; exact hret.symm
    · cases h

theorem encode_of_decodeFamily8 {op : Word} {i : Instr} (hm : majorOf op = 0x8#4) (h : decodeFamily8 op = some i) :
    encode i = op := by
  unfold decodeFamily8 at h
  split at h
  case h_10 => cases h
  all_goals
    next hn =>
      cases h
      exact wordXYN_of_major_low hm hn

theorem encode_of_decodeFamilyE {op : Word} {i : Instr} (hm : majorOf op = 0xE#4) (h : decodeFamilyE op = some i) :
    encode i = op := by
  unfold decodeFamilyE at h
  split at h
  case h_3 => cases h
  all_goals
    next hkk =>
      cases h
      exact wordXKK_of_major_byte hm hkk

theorem encode_of_decodeFamilyF {op : Word} {i : Instr} (hm : majorOf op = 0xF#4) (h : decodeFamilyF op = some i) :
    encode i = op := by
  unfold decodeFamilyF at h
  split at h
  case h_10 => cases h
  all_goals
    next hkk =>
      cases h
      exact wordXKK_of_major_byte hm hkk

/-- Settles O2: in each family the fields the decoder tested and those it read are all the bits of the word. -/
theorem decodedOpcodeEncodesBack : Obligations.DecodedOpcodeEncodesBack := by
  unfold Obligations.DecodedOpcodeEncodesBack
  intro op i h
  unfold decode at h
  split at h
  case h_1 => exact encode_of_decodeFamily0 h
  case h_9 hm => exact encode_of_decodeFamily8 hm h
  case h_15 hm => exact encode_of_decodeFamilyE hm h
  case h_16 h0 h1 h2 h3 h4 h5 h6 h7 h8 h9 hA hB hC hD hE =>
    exact encode_of_decodeFamilyF (nibble_eq_F h0 h1 h2 h3 h4 h5 h6 h7 h8 h9 hA hB hC hD hE) h
  case h_6 hm | h_10 hm =>
    split at h
    · next hn => cases h; exact wordXYN_of_major_low hm hn
    · cases h
  case h_2 hm | h_3 hm | h_11 hm | h_12 hm => cases h; exact wordNNN_of_major hm
  case h_4 hm | h_5 hm | h_7 hm | h_8 hm | h_13 hm => cases h; exact wordXKK_of_major hm
  case h_14 hm => cases h; exact wordXYN_of_major hm

/-- A word decodes to an instruction exactly when it is that instruction's opcode. -/
theorem decode_eq_some_iff {op : Word} {i : Instr} : decode op = some i ↔ encode i = op :=
  ⟨decodedOpcodeEncodesBack op i, fun h => h ▸ decodeOfEncodeIsTheInstruction i⟩

/-! ### The rows of the table (R74) -/

theorem row_mem_opcodeTable (i : Instr) : i.row ∈ opcodeTable := by
  cases i <;> simp only [Instr.row] <;> decide

/-- Every instruction's opcode is in the row of the instruction. -/
theorem row_matches_encode (i : Instr) : i.row.matchesWord (encode i) = true := by
  open Laws.RowOfEncoding in
  cases i with
  | cls => exact cls
  | ret => exact ret
  | jp nnn => exact jp nnn
  | call nnn => exact call nnn
  | seImm x kk => exact seImm x kk
  | sneImm x kk => exact sneImm x kk
  | seReg x y => exact seReg x y
  | ldImm x kk => exact ldImm x kk
  | addImm x kk => exact addImm x kk
  | ldReg x y => exact ldReg x y
  | orReg x y => exact orReg x y
  | andReg x y => exact andReg x y
  | xorReg x y => exact xorReg x y
  | addReg x y => exact addReg x y
  | sub x y => exact sub x y
  | shr x y => exact shr x y
  | subn x y => exact subn x y
  | shl x y => exact shl x y
  | sneReg x y => exact sneReg x y
  | ldI nnn => exact ldI nnn
  | jpV0 nnn => exact jpV0 nnn
  | rnd x kk => exact rnd x kk
  | drw x y n => exact drw x y n
  | skp x => exact skp x
  | sknp x => exact sknp x
  | ldVxDT x => exact ldVxDT x
  | ldKey x => exact ldKey x
  | ldDT x => exact ldDT x
  | ldST x => exact ldST x
  | addI x => exact addI x
  | ldF x => exact ldF x
  | bcd x => exact bcd x
  | store x => exact store x
  | load x => exact load x

/-! What the mask of a row says of the fields of a word in it. -/

theorem eq_pattern_of_mask_all {op p : Word} (h : OpcodeRow.matchesWord ⟨0xFFFF, p⟩ op = true) : p = op := by
  have hp : op = p := by simpa [OpcodeRow.matchesWord, mask_all] using h
  exact hp.symm

theorem majorOf_of_mask {op p : Word} (h : OpcodeRow.matchesWord ⟨0xF000, p⟩ op = true) : majorOf op = majorOf p := by
  have hp : wordNNN (majorOf op) 0 = p := by simpa [OpcodeRow.matchesWord, mask_major] using h
  rw [← hp, majorOf_wordNNN]

theorem major_low_of_mask {op p : Word} (h : OpcodeRow.matchesWord ⟨0xF00F, p⟩ op = true) :
    majorOf op = majorOf p ∧ nOf op = nOf p := by
  have hp : wordXYN (majorOf op) 0 0 (nOf op) = p := by simpa [OpcodeRow.matchesWord, mask_major_low] using h
  rw [← hp, majorOf_wordXYN, nOf_wordXYN]
  exact ⟨rfl, rfl⟩

theorem major_byte_of_mask {op p : Word} (h : OpcodeRow.matchesWord ⟨0xF0FF, p⟩ op = true) :
    majorOf op = majorOf p ∧ kkOf op = kkOf p := by
  have hp : wordXKK (majorOf op) 0 (kkOf op) = p := by simpa [OpcodeRow.matchesWord, mask_major_byte] using h
  rw [← hp, majorOf_wordXKK, kkOf_wordXKK]
  exact ⟨rfl, rfl⟩

/-! The word of a row rebuilt from the digits its pattern fixes and the fields its mask leaves free. -/

theorem wordNNN_of_row {op p : Word} {m : Nibble} (h : OpcodeRow.matchesWord ⟨0xF000, p⟩ op = true)
    (hm : majorOf p = m := by decide) : wordNNN m (nnnOf op) = op :=
  wordNNN_of_major ((majorOf_of_mask h).trans hm)

theorem wordXKK_of_row {op p : Word} {m : Nibble} (h : OpcodeRow.matchesWord ⟨0xF000, p⟩ op = true)
    (hm : majorOf p = m := by decide) : wordXKK m (xOf op) (kkOf op) = op :=
  wordXKK_of_major ((majorOf_of_mask h).trans hm)

theorem wordXYN_of_row {op p : Word} {m : Nibble} (h : OpcodeRow.matchesWord ⟨0xF000, p⟩ op = true)
    (hm : majorOf p = m := by decide) : wordXYN m (xOf op) (yOf op) (nOf op) = op :=
  wordXYN_of_major ((majorOf_of_mask h).trans hm)

theorem wordXYN_of_row_low {op p : Word} {m n : Nibble} (h : OpcodeRow.matchesWord ⟨0xF00F, p⟩ op = true)
    (hm : majorOf p = m := by decide) (hn : nOf p = n := by decide) : wordXYN m (xOf op) (yOf op) n = op := by
  obtain ⟨hmajor, hlow⟩ := major_low_of_mask h
  exact wordXYN_of_major_low (hmajor.trans hm) (hlow.trans hn)

theorem wordXKK_of_row_byte {op p : Word} {m : Nibble} {kk : Byte} (h : OpcodeRow.matchesWord ⟨0xF0FF, p⟩ op = true)
    (hm : majorOf p = m := by decide) (hkk : kkOf p = kk := by decide) : wordXKK m (xOf op) kk = op := by
  obtain ⟨hmajor, hbyte⟩ := major_byte_of_mask h
  exact wordXKK_of_major_byte (hmajor.trans hm) (hbyte.trans hkk)

/-- One instruction of each row, in the order of the table. -/
def rowInstrs : List Instr :=
  [.cls, .ret, .jp 0, .call 0, .seImm 0 0, .sneImm 0 0, .seReg 0 0, .ldImm 0 0, .addImm 0 0, .ldReg 0 0, .orReg 0 0,
   .andReg 0 0, .xorReg 0 0, .addReg 0 0, .sub 0 0, .shr 0 0, .subn 0 0, .shl 0 0, .sneReg 0 0, .ldI 0, .jpV0 0, .rnd 0 0,
   .drw 0 0 0, .skp 0, .sknp 0, .ldVxDT 0, .ldKey 0, .ldDT 0, .ldST 0, .addI 0, .ldF 0, .bcd 0, .store 0, .load 0]

theorem opcodeTable_eq_rows : opcodeTable = rowInstrs.map Instr.row := rfl

/-- Every row of the table is the row of an instruction. -/
theorem exists_row_eq {r : OpcodeRow} (hr : r ∈ opcodeTable) : ∃ i : Instr, i.row = r := by
  rw [opcodeTable_eq_rows] at hr
  obtain ⟨i, -, hrow⟩ := List.mem_map.1 hr
  exact ⟨i, hrow⟩

/-- Every word of an instruction's row is the opcode of an instruction of that row. -/
theorem exists_encode_of_row {op : Word} (i : Instr) (h : i.row.matchesWord op = true) :
    ∃ j : Instr, encode j = op ∧ j.row = i.row := by
  cases i with
  | cls => exact ⟨.cls, eq_pattern_of_mask_all h, rfl⟩
  | ret => exact ⟨.ret, eq_pattern_of_mask_all h, rfl⟩
  | jp _ => exact ⟨.jp _, wordNNN_of_row h, rfl⟩
  | call _ => exact ⟨.call _, wordNNN_of_row h, rfl⟩
  | seImm _ _ => exact ⟨.seImm _ _, wordXKK_of_row h, rfl⟩
  | sneImm _ _ => exact ⟨.sneImm _ _, wordXKK_of_row h, rfl⟩
  | seReg _ _ => exact ⟨.seReg _ _, wordXYN_of_row_low h, rfl⟩
  | ldImm _ _ => exact ⟨.ldImm _ _, wordXKK_of_row h, rfl⟩
  | addImm _ _ => exact ⟨.addImm _ _, wordXKK_of_row h, rfl⟩
  | ldReg _ _ => exact ⟨.ldReg _ _, wordXYN_of_row_low h, rfl⟩
  | orReg _ _ => exact ⟨.orReg _ _, wordXYN_of_row_low h, rfl⟩
  | andReg _ _ => exact ⟨.andReg _ _, wordXYN_of_row_low h, rfl⟩
  | xorReg _ _ => exact ⟨.xorReg _ _, wordXYN_of_row_low h, rfl⟩
  | addReg _ _ => exact ⟨.addReg _ _, wordXYN_of_row_low h, rfl⟩
  | sub _ _ => exact ⟨.sub _ _, wordXYN_of_row_low h, rfl⟩
  | shr _ _ => exact ⟨.shr _ _, wordXYN_of_row_low h, rfl⟩
  | subn _ _ => exact ⟨.subn _ _, wordXYN_of_row_low h, rfl⟩
  | shl _ _ => exact ⟨.shl _ _, wordXYN_of_row_low h, rfl⟩
  | sneReg _ _ => exact ⟨.sneReg _ _, wordXYN_of_row_low h, rfl⟩
  | ldI _ => exact ⟨.ldI _, wordNNN_of_row h, rfl⟩
  | jpV0 _ => exact ⟨.jpV0 _, wordNNN_of_row h, rfl⟩
  | rnd _ _ => exact ⟨.rnd _ _, wordXKK_of_row h, rfl⟩
  | drw _ _ _ => exact ⟨.drw _ _ _, wordXYN_of_row h, rfl⟩
  | skp _ => exact ⟨.skp _, wordXKK_of_row_byte h, rfl⟩
  | sknp _ => exact ⟨.sknp _, wordXKK_of_row_byte h, rfl⟩
  | ldVxDT _ => exact ⟨.ldVxDT _, wordXKK_of_row_byte h, rfl⟩
  | ldKey _ => exact ⟨.ldKey _, wordXKK_of_row_byte h, rfl⟩
  | ldDT _ => exact ⟨.ldDT _, wordXKK_of_row_byte h, rfl⟩
  | ldST _ => exact ⟨.ldST _, wordXKK_of_row_byte h, rfl⟩
  | addI _ => exact ⟨.addI _, wordXKK_of_row_byte h, rfl⟩
  | ldF _ => exact ⟨.ldF _, wordXKK_of_row_byte h, rfl⟩
  | bcd _ => exact ⟨.bcd _, wordXKK_of_row_byte h, rfl⟩
  | store _ => exact ⟨.store _, wordXKK_of_row_byte h, rfl⟩
  | load _ => exact ⟨.load _, wordXKK_of_row_byte h, rfl⟩

/-- Settles O3: decoding is the inverse of encoding, and an opcode is in the row of its instruction. -/
theorem decodeFollowsTheOpcodeTable : Obligations.DecodeFollowsTheOpcodeTable := by
  unfold Obligations.DecodeFollowsTheOpcodeTable
  refine ⟨rfl, fun op i h => ?_, fun op r hr h => ?_⟩
  · obtain rfl := decode_eq_some_iff.1 h
    exact ⟨row_mem_opcodeTable i, row_matches_encode i⟩
  · obtain ⟨i, rfl⟩ := exists_row_eq hr
    obtain ⟨j, hencode, hrow⟩ := exists_encode_of_row i h
    exact ⟨j, decode_eq_some_iff.2 hencode, hrow⟩

/-! ### The illegal words (R76) -/

theorem decodeFamily0_eq_none {op : Word} : decodeFamily0 op = none ↔ op ≠ 0x00E0#16 ∧ op ≠ 0x00EE#16 := by
  unfold decodeFamily0
  split
  · next h => simp [h]
  · split
    · next h => simp [h]
    · next h h' => simp [h, h']

/-- The low nibbles left over, by elimination of the nine that select a row. -/
theorem nibble_selects_no_row {n : Nibble} (h0 : n ≠ 0x0#4) (h1 : n ≠ 0x1#4) (h2 : n ≠ 0x2#4) (h3 : n ≠ 0x3#4)
    (h4 : n ≠ 0x4#4) (h5 : n ≠ 0x5#4) (h6 : n ≠ 0x6#4) (h7 : n ≠ 0x7#4) (hE : n ≠ 0xE#4) :
    n ∈ [0x8#4, 0x9#4, 0xA#4, 0xB#4, 0xC#4, 0xD#4, 0xF#4] := by
  revert n
  decide

/-- The low nibbles that select no row in family 8 are the seven left over. -/
theorem decodeFamily8_eq_none {op : Word} :
    decodeFamily8 op = none ↔ nOf op ∈ [0x8#4, 0x9#4, 0xA#4, 0xB#4, 0xC#4, 0xD#4, 0xF#4] := by
  unfold decodeFamily8
  split
  case h_10 h0 h1 h2 h3 h4 h5 h6 h7 hE =>
    have hleft : nOf op ∈ [0x8#4, 0x9#4, 0xA#4, 0xB#4, 0xC#4, 0xD#4, 0xF#4] :=
      nibble_selects_no_row h0 h1 h2 h3 h4 h5 h6 h7 hE
    simpa using hleft
  all_goals next h => simp [h]

theorem decodeFamilyE_eq_none {op : Word} : decodeFamilyE op = none ↔ kkOf op ∉ [0x9E#8, 0xA1#8] := by
  unfold decodeFamilyE
  split
  case h_3 h9E hA1 => simpa using And.intro h9E hA1
  all_goals next h => simp [h]

theorem decodeFamilyF_eq_none {op : Word} :
    decodeFamilyF op = none ↔
      kkOf op ∉ [0x07#8, 0x0A#8, 0x15#8, 0x18#8, 0x1E#8, 0x29#8, 0x33#8, 0x55#8, 0x65#8] := by
  unfold decodeFamilyF
  split
  case h_10 h07 h0A h15 h18 h1E h29 h33 h55 h65 => simpa using ⟨h07, h0A, h15, h18, h1E, h29, h33, h55, h65⟩
  all_goals next h => simp [h]

/-- The illegal words in the terms of the decoder's fields. -/
theorem decode_eq_none {op : Word} : decode op = none ↔
    ((majorOf op = 0x0#4 ∧ decodeFamily0 op = none) ∨ (majorOf op = 0x5#4 ∧ nOf op ≠ 0x0#4) ∨
      (majorOf op = 0x8#4 ∧ decodeFamily8 op = none) ∨ (majorOf op = 0x9#4 ∧ nOf op ≠ 0x0#4) ∨
      (majorOf op = 0xE#4 ∧ decodeFamilyE op = none) ∨ (majorOf op = 0xF#4 ∧ decodeFamilyF op = none)) := by
  unfold decode
  split
  case h_16 h0 h1 h2 h3 h4 h5 h6 h7 h8 h9 hA hB hC hD hE =>
    simp [nibble_eq_F h0 h1 h2 h3 h4 h5 h6 h7 h8 h9 hA hB hC hD hE]
  all_goals next hm => simp [hm]

/-- Settles O4: each family's illegal words are those its selector leaves over, and the other families have none. -/
theorem illegalOpcodesByFamily : Obligations.IllegalOpcodesByFamily := by
  unfold Obligations.IllegalOpcodesByFamily
  intro op
  rw [decode_eq_none, decodeFamily0_eq_none, decodeFamily8_eq_none, decodeFamilyE_eq_none, decodeFamilyF_eq_none]
  rfl

/-- Settles O5: fifteen words, each decoded by evaluation. -/
theorem sampleOpcodesDecode : Obligations.SampleOpcodesDecode := by
  unfold Obligations.SampleOpcodesDecode
  decide

end Sys2Proof.Machine
end

section
/-! SUPPORT. The cells and the ends of a step (60_exceptions.md R210, R219, R229, R232, R233; 40_step_and_flow.md R100): the
fetch, what enables a step, the state an instruction is run on, the tick, the host's turn and the frame cell. -/

namespace Sys2Proof.Machine

/-! ### Fetch (R43, R45) -/

/-- The address after `a`, taken mod 4096 (R45). -/
theorem addr_succ (a : Addr) : BitVec.ofNat 12 ((a.toNat + 1) % 4096) = a + 1 := by bv_omega

/-- Settles O6: the high byte stands at `pc`, the low byte at the address after it. -/
theorem fetchIsBigEndianAndWraps : Obligations.FetchIsBigEndianAndWraps := by
  unfold Obligations.FetchIsBigEndianAndWraps
  intro s
  rw [addr_succ]
  exact wordOfBytes_toNat _ _

/-! ### What enables a step (R210, R232, R264) -/

theorem gate_of_halted {s : State} {c : FatalCause} (h : s.halt = .halted c) : s.gate = .halted c := by
  simp [State.gate, h]

theorem gate_of_misconfigured {s : State} (hrun : s.halt = .running) (hp : s.params.wellFormed = false) :
    s.gate = .misconfigured := by
  simp [State.gate, hrun, hp]

theorem gate_of_not_loaded {s : State} (hrun : s.halt = .running) (hp : s.params.wellFormed = true)
    (hl : s.loaded = false) : s.gate = .notLoaded := by
  simp [State.gate, hrun, hp, hl]

/-- While the agent is blocked on `READY`, a step is one turn of the host (R232). -/
theorem step_of_waiting {s : State} (h : s.gate = .waiting) : step s = .next s.hostTurn := by
  simp [step, h]

/-- Settles O10: the halt latch closes the gate before anything else is looked at. -/
theorem haltedCoreNeverSteps : Obligations.HaltedCoreNeverSteps := by
  unfold Obligations.HaltedCoreNeverSteps
  intro s c h
  simp [step, gate_of_halted h]

/-- Settles O11: on a running core the gate looks at the parameters first, then at the Load. -/
theorem stepRefusedBeforeLoadOrMisconfigured : Obligations.StepRefusedBeforeLoadOrMisconfigured := by
  unfold Obligations.StepRefusedBeforeLoadOrMisconfigured
  refine fun s hrun => ⟨fun hp => ?_, fun hp hl => ?_⟩
  · simp [step, gate_of_misconfigured hrun hp]
  · simp [step, gate_of_not_loaded hrun hp hl]

/-! ### The host's turn and `READY` (R227, R232, R239) -/

/-- An instruction does not touch `READY` (R227). -/
theorem exec_ready {i : Instr} {s t : State} (h : exec i s = .next t) : t.ready = s.ready := by
  obtain ⟨-, -, -, -, -, -, -, -, -, -, -, -, hready, -⟩ := stateWrittenOnlyByItsInstructions i s t h
  exact hready

/-- The execute phase leaves `READY` as the host's turns did. -/
theorem Executes.ready_eq {s u : State} (h : Executes s u) : u.ready = s.openStep.ready := by
  cases h with
  | nop => rfl
  | instr i u _ _ hexec => exact (exec_ready hexec).trans (advance_ready _)
  | illegal => rfl

/-- The end of an iteration does not take `READY` back. -/
theorem endStep_ready {t : State} (h : t.ready = true) : t.endStep.ready = true := by
  rw [endStep_eq_ite]
  split
  · exact hostTurn_ready _ h
  · exact h

/-- Settles O12: the wait is a host's turn, and `READY` is kept by the turns, by the execute phase and by the end of the
iteration. -/
theorem waitsUntilReadyAndReadyStays : Obligations.WaitsUntilReadyAndReadyStays := by
  unfold Obligations.WaitsUntilReadyAndReadyStays
  refine ⟨fun s hrun hp hl hr => ?_, fun s t hstep hr => ?_⟩
  · refine ⟨s.hostTurn, step_of_waiting (gate_waiting.2 ⟨hrun, hp, hl, hr⟩), ?_, hostTurn_frame_data s,
      hostTurn_consumed s⟩
    rw [hostTurn_frame]
  · obtain ⟨-, rfl⟩ | ⟨-, u, hu, rfl⟩ := step_next_cases hstep
    · exact hostTurn_ready s hr
    · exact endStep_ready (hu.ready_eq.trans (openStep_ready s hr))

/-- Settles O57: a turn applies one set of moves, the next of the queue where it has one. -/
theorem hostTouchesOnlyTheCells : Obligations.HostTouchesOnlyTheCells := by
  unfold Obligations.HostTouchesOnlyTheCells
  intro s
  constructor
  · obtain ⟨m, c, hturn⟩ := hostTurn_eq s
    exact ⟨m, by rw [hturn]; rfl⟩
  · intro m ms hqueue
    simp only [State.hostTurn, hqueue]
    rfl

/-! ### The step of an enabled core (R100, R210, R211, R233) -/

/-- On a released core the state the execute phase starts from is that of before but for `pc`, the update, the step's inputs and
the host's record. -/
theorem prepared_of_ready {s : State} (h : s.ready = true) :
    s.openStep.advance =
      { s with pc := s.pc + 2, update := none, keys := s.openStep.keys, frame := s.openStep.frame,
               rand := s.openStep.rand, snapshot := s.hostTurn.keys, hostQueue := s.openStep.hostQueue,
               hostClock := s.openStep.hostClock } := by
  have hready : s.openStep.ready = s.ready := by rw [openStep_ready s h, h]
  have hframe : s.openStep.frame = ⟨s.frame.data, s.openStep.frame.consumed⟩ := by rw [← openStep_frame_data]
  rw [prepared_eq, hready, ← hframe]

/-- Settles O7: the execute phase of a word that decodes is that of its instruction on the advanced state. -/
theorem stepRunsTheDecodedInstruction : Obligations.StepRunsTheDecodedInstruction := by
  unfold Obligations.StepRunsTheDecodedInstruction
  intro s i hs hnop hdecode
  refine ⟨s.openStep.advance, ?_, openStep_frame_data s, rfl, fun t hexec => ?_⟩
  · rw [prepared_of_ready hs.isReady]
  · rw [step_of_executes hs (.instr i t hnop hdecode hexec), endStep_eq_ite]

/-- Settles O9: the fatal condition of an illegal word is raised on the advanced state, and the end of the iteration does
nothing. -/
theorem illegalOpcodeHalts : Obligations.IllegalOpcodeHalts := by
  unfold Obligations.IllegalOpcodeHalts
  intro s hs hnop hdecode
  have hstep := step_of_executes hs (.illegal hnop hdecode)
  rw [endStep_halted rfl] at hstep
  refine ⟨_, hstep, rfl, ?_, rfl, openStep_frame_data s, openStep_consumed s, sameMemory_of_eq (by simp) (by simp)⟩
  rw [prepared_of_ready hs.isReady]

/-! ### The tick (R219, R220) -/

theorem timerTick_not_due {s : State} (h : s.tick + 1 ≠ s.params.timerDivisor) :
    s.timerTick = { s with tick := s.tick + 1 } := by
  have hdue : s.tickDue = false := Bool.eq_false_iff.2 (mt (tickDue_iff s).1 h)
  simp [State.timerTick, hdue]

theorem timerTick_due {s : State} (h : s.tick + 1 = s.params.timerDivisor) :
    s.timerTick = { s with tick := 0, dt := decTimer s.dt, st := decTimer s.st } := by
  simp [State.timerTick, (tickDue_iff s).2 h]

/-- The divisor is the quotient of `2 * clock + 60` by 120, so it is the integer nearest to `clock / 60`, up to the bounds of
that quotient (R5, D14). -/
theorem timerDivisorOf_bounds (num : Nat) {den : Nat} (h : 0 < den) :
    120 * den * timerDivisorOf num den ≤ 2 * num + 60 * den ∧
      2 * num + 60 * den < 120 * den * (timerDivisorOf num den + 1) :=
  ⟨Nat.mul_div_le _ _, Nat.lt_mul_div_succ _ (by omega)⟩

/-- The divisor is at least 1 exactly from 30 steps per second on (U18). -/
theorem one_le_timerDivisorOf (num : Nat) {den : Nat} (h : 0 < den) : 1 ≤ timerDivisorOf num den ↔ 30 * den ≤ num := by
  rw [timerDivisorOf, Nat.le_div_iff_mul_le (by omega)]
  omega

/-- Settles O14: the tick in its two cases, and the divisor as a rounded quotient. -/
theorem timerTickDecrementsOnTheDivisor : Obligations.TimerTickDecrementsOnTheDivisor := by
  unfold Obligations.TimerTickDecrementsOnTheDivisor
  refine ⟨fun s => ⟨timerTick_not_due, fun hdue => ?_⟩, rfl, rfl,
    fun num den hden => ⟨timerDivisorOf_bounds num hden, one_le_timerDivisorOf num hden⟩⟩
  rw [timerTick_due hdue]
  exact ⟨rfl, decTimer_toNat s.dt, decTimer_toNat s.st⟩

/-! ### The frame cell (R229) -/

theorem publishUpdate_frame_of_some {s : State} {f : Display} (h : s.update = some f) :
    s.publishUpdate.frame = ⟨f, false⟩ := by
  simp [State.publishUpdate, h]

/-- Settles O58: what a publication leaves in the cell, and what a drain makes of it. -/
theorem frameCellKeepsTheLatest : Obligations.FrameCellKeepsTheLatest := by
  unfold Obligations.FrameCellKeepsTheLatest
  intro s f hupdate
  simp [State.frameToDrain, State.drainFrame, publishUpdate_frame_of_some hupdate]

end Sys2Proof.Machine
end

section
/-! SUPPORT. The invariant (10_state.md R27; 60_exceptions.md R229, R231, R233): creation meets it, a step and Load keep it. The
memory, the stack and the display of an instruction are said once, for the step's proof. -/

namespace Sys2Proof.Machine

/-! ### Creation (R26, R260) -/

/-- The created state meets the invariant as soon as the divisor is at least 1: it lists no byte, its stack is empty, its
timers are stopped and its frame is the blank display. -/
theorem created_inv {p : Params} (h : 0 < p.timerDivisor) : (State.created p).Inv where
  memCanonical := rfl
  tickBelow := h
  stackBounded := fun d _ => Nat.zero_le d
  buzzerTracks := rfl
  frameTracks := rfl
  updateTracks := nofun

theorem timerDivisor_pos {p : Params} (h : p.wellFormed = true) : 0 < p.timerDivisor := by
  simp only [Params.wellFormed, Params.timerOk, Bool.and_eq_true, decide_eq_true_eq] at h
  obtain ⟨⟨hdivisor, -⟩, -⟩ := h
  exact hdivisor

/-- Settles O15: the default divisor is a successor, and a well-formed one is at least 1. -/
theorem resetMeetsTheInvariant : Obligations.ResetMeetsTheInvariant := by
  unfold Obligations.ResetMeetsTheInvariant
  exact ⟨created_inv (p := defaultParams) (Nat.succ_pos _), fun p hp => created_inv (timerDivisor_pos hp)⟩

/-! ### What an instruction does to memory, to the stack and to the display -/

/-- An instruction leaves the memory data as they are, or is a run of byte writes at `I` (R153, R154). -/
theorem exec_mem {i : Instr} {s t : State} (h : exec i s = .next t) :
    t.mem = s.mem ∨ ∃ bs, t.mem = (s.writeBytes s.index bs).mem := by
  cases exec_effect h with
  | regs only | pc _ only | pcStack _ only | index _ only | halt _ only =>
    obtain ⟨heq, -⟩ := only
    exact .inl (by rw [heq])
  | display _ only | dt only | st only => exact .inl (by rw [only])
  | mem isStore _ =>
    obtain ⟨x, rfl⟩ | ⟨x, rfl⟩ := isStore
    · cases h; exact .inr ⟨_, rfl⟩
    · cases h; exact .inr ⟨_, rfl⟩

/-- An instruction keeps the canonical form of memory. -/
theorem exec_memCanonical {i : Instr} {s t : State} (h : exec i s = .next t)
    (hwf : Memory.wf s.params.font s.mem = true) : Memory.wf t.params.font t.mem = true := by
  obtain ⟨-, hparams⟩ := exec_tick_params h
  rw [hparams]
  obtain hmem | ⟨bs, hmem⟩ := exec_mem h
  · rw [hmem]; exact hwf
  · rw [hmem]; exact writeBytes_wf s s.index bs hwf

/-- A stack that is not full is below the bound (R16). -/
theorem length_lt_of_not_full {s : State} {d : Nat} (hd : s.params.stackDepth = some d) (h : s.stackFull = false) :
    s.stack.length < d := by
  simpa [stackFull_of_bound hd] using h

/-- A call pushes one entry on a stack with room, or leaves the stack (R16, R105). -/
theorem exec_call_stack {n : Addr} {s t : State} (h : exec (.call n) s = .next t) :
    t.stack = s.stack ∨ (s.stackFull = false ∧ t.stack = s.pc :: s.stack) := by
  simp only [exec, execCall] at h
  split at h
  · cases h; exact .inl rfl
  · next hfull => cases h; exact .inr ⟨by simpa using hfull, rfl⟩

/-- An instruction keeps the bound of the stack: only a call pushes, and it tests for room. -/
theorem exec_stackBounded {i : Instr} {s t : State} (h : exec i s = .next t) {d : Nat}
    (hd : s.params.stackDepth = some d) (hbound : s.stack.length ≤ d) : t.stack.length ≤ d := by
  by_cases hret : i = .ret
  · subst hret
    cases (exec_ret s).symm.trans h
    rw [setPc_stack, dropTop_stack, List.length_tail]
    omega
  by_cases hcall : ∃ n, i = .call n
  · obtain ⟨n, rfl⟩ := hcall
    obtain hsame | ⟨hroom, hpushed⟩ := exec_call_stack h
    · rwa [hsame]
    · rw [hpushed]; exact length_lt_of_not_full hd hroom
  · obtain ⟨-, -, -, -, hstack, -⟩ := stateWrittenOnlyByItsInstructions i s t h
    rwa [hstack hret fun n hn => hcall ⟨n, hn⟩]

/-- An instruction leaves the display and the update, or returns the whole display as the update (R170). -/
theorem exec_disp_update {i : Instr} {s t : State} (h : exec i s = .next t) :
    (t.disp = s.disp ∧ t.update = s.update) ∨ t.update = some t.disp := by
  by_cases hi : i = .cls ∨ ∃ x y n, i = .drw x y n
  · exact .inr (exec_update_of_display hi h)
  · obtain ⟨-, -, -, hdisplay, -⟩ := stateWrittenOnlyByItsInstructions i s t h
    exact .inl (hdisplay (fun hcls => hi (.inl hcls)) fun x y n hdrw => hi (.inr ⟨x, y, n, hdrw⟩))

theorem exec_frame_loaded {i : Instr} {s t : State} (h : exec i s = .next t) :
    t.frame = s.frame ∧ t.loaded = s.loaded := by
  obtain ⟨-, -, -, -, -, -, -, -, -, hframe, -, -, -, -, -, -, hloaded, -⟩ :=
    stateWrittenOnlyByItsInstructions i s t h
  exact ⟨hframe, hloaded⟩

/-! ### The execute phase -/

theorem Executes.params_loaded {s u : State} (h : Executes s u) : u.params = s.params ∧ u.loaded = s.loaded := by
  cases h with
  | nop => simp
  | illegal => simp
  | instr i u _ _ hexec =>
    obtain ⟨-, hparams⟩ := exec_tick_params hexec
    obtain ⟨-, hloaded⟩ := exec_frame_loaded hexec
    simp [hparams, hloaded]

theorem Executes.memCanonical {s u : State} (h : Executes s u) (hwf : Memory.wf s.params.font s.mem = true) :
    Memory.wf u.params.font u.mem = true := by
  cases h with
  | nop => simpa using hwf
  | illegal => simpa using hwf
  | instr i u _ _ hexec => exact exec_memCanonical hexec (by simpa using hwf)

theorem Executes.stackBounded {s u : State} (h : Executes s u) {d : Nat} (hd : s.params.stackDepth = some d)
    (hbound : s.stack.length ≤ d) : u.stack.length ≤ d := by
  cases h with
  | nop => simpa using hbound
  | illegal => simpa using hbound
  | instr i u _ _ hexec => exact exec_stackBounded hexec (by simpa using hd) (by simpa using hbound)

/-- No update is returned and the display is as it was, or the update is the whole display (R170). -/
theorem Executes.disp_update {s u : State} (h : Executes s u) :
    (u.disp = s.disp ∧ u.update = none) ∨ u.update = some u.disp := by
  cases h with
  | nop => left; simp
  | illegal => left; simp
  | instr i u _ _ hexec => simpa using exec_disp_update hexec

/-- Nothing is published before the step has ended (R233). -/
theorem Executes.frame_data {s u : State} (h : Executes s u) : u.frame.data = s.frame.data := by
  cases h with
  | nop => simp
  | illegal => simp
  | instr i u _ _ hexec =>
    obtain ⟨hframe, -⟩ := exec_frame_loaded hexec
    simp [hframe]

/-- An update returned is the whole display, so publishing it leaves the frame's data equal to the display. -/
theorem Executes.updateTracks {s u : State} (h : Executes s u) : ∀ d, u.update = some d → d = u.disp := by
  intro d hd
  obtain ⟨-, hnone⟩ | hsome := h.disp_update
  · simp [hnone] at hd
  · simpa [hsome] using hd.symm

/-! ### The end of an iteration -/

/-- The tick leaves `TICK` below the divisor (R19, R219). -/
theorem timerTick_below {s : State} (h : s.tick < s.params.timerDivisor) : s.timerTick.tick < s.params.timerDivisor := by
  by_cases hdue : s.tick + 1 = s.params.timerDivisor
  · rw [timerTick_due hdue]; exact Nat.zero_lt_of_lt h
  · rw [timerTick_not_due hdue]; exact Nat.lt_of_le_of_ne h hdue

/-- A core that goes on ends its iteration with the frame's data equal to the display. -/
theorem Executes.endStep_frameTracks {s u : State} (h : Executes s u) (hrun : u.halt = .running)
    (hs : s.frame.data = s.disp) : u.endStep.frame.data = u.disp := by
  obtain ⟨hdisp, hnone⟩ | hsome := h.disp_update
  · obtain ⟨hdata, -⟩ := endStep_frame_of_none hnone
    rw [hdata, h.frame_data, hs, hdisp]
  · exact endStep_frame_of_some hrun hsome

/-! ### The statements -/

/-- A host's turn keeps the invariant: it touches nothing that the invariant speaks of. -/
theorem hostTurn_inv {s : State} (h : s.Inv) : s.hostTurn.Inv where
  memCanonical := by simpa using h.memCanonical
  tickBelow := by simpa using h.tickBelow
  stackBounded := by simpa using h.stackBounded
  buzzerTracks := by simpa [State.buzzerActive] using h.buzzerTracks
  frameTracks := by simpa using h.frameTracks
  updateTracks := by simpa using h.updateTracks

/-- The end of an iteration on a core that goes on restores the invariant. -/
theorem Executes.endStep_inv {s u : State} (h : Executes s u) (hs : s.Inv) (hrun : u.halt = .running)
    (htick : u.tick = s.tick) : u.endStep.Inv := by
  obtain ⟨hparams, -⟩ := h.params_loaded
  obtain ⟨hticked, -, -, hbuzzer⟩ := endStep_timers hrun
  have hbelow : u.tick < u.params.timerDivisor := by rw [htick, hparams]; exact hs.tickBelow
  exact {
    memCanonical := by simpa using h.memCanonical hs.memCanonical
    tickBelow := by rw [hticked, endStep_params]; exact timerTick_below hbelow
    stackBounded := fun d hd => by
      rw [endStep_params, hparams] at hd
      rw [endStep_stack]
      exact h.stackBounded hd (hs.stackBounded d hd)
    buzzerTracks := hbuzzer
    frameTracks := by rw [h.endStep_frameTracks hrun hs.frameTracks, endStep_disp]
    updateTracks := by simpa using h.updateTracks }

/-- A fatal condition leaves the invariant: nothing that it speaks of has changed, and no update has been returned. -/
theorem fatal_inv {s : State} (c : FatalCause) (hs : s.Inv) :
    ({ s.openStep.advance with halt := .halted c } : State).Inv where
  memCanonical := by simpa using hs.memCanonical
  tickBelow := by simpa using hs.tickBelow
  stackBounded := by simpa using hs.stackBounded
  buzzerTracks := by simpa [State.buzzerActive] using hs.buzzerTracks
  frameTracks := by simpa using hs.frameTracks
  updateTracks := nofun

/-- Settles O16: a waiting agent takes a host's turn; an execute phase goes on to the end of the iteration, or is fatal and
leaves what the invariant speaks of. -/
theorem stepKeepsTheInvariant : Obligations.StepKeepsTheInvariant := by
  unfold Obligations.StepKeepsTheInvariant
  intro s t hs hstep
  obtain ⟨-, rfl⟩ | ⟨henabled, u, hu, rfl⟩ := step_next_cases hstep
  · exact hostTurn_inv hs
  · obtain ⟨hhalt, htick, -⟩ | ⟨c, rfl⟩ := hu.goesOn_or_fatal
    · exact hu.endStep_inv hs (hhalt.trans henabled.running) htick
    · rw [endStep_halted rfl]; exact fatal_inv c hs

/-- Settles O18: neither the host's turns, nor the execute phase, nor the end of the iteration writes them. -/
theorem stepKeepsParametersAndLoad : Obligations.StepKeepsParametersAndLoad := by
  unfold Obligations.StepKeepsParametersAndLoad
  intro s t hstep
  obtain ⟨-, rfl⟩ | ⟨-, u, hu, rfl⟩ := step_next_cases hstep
  · exact ⟨hostTurn_params s, hostTurn_loaded s⟩
  · simpa using hu.params_loaded

end Sys2Proof.Machine
end

section
/-! SUPPORT. Load (70_reset_and_hazards.md R262 to R264; 20_memory.md R53): its answers, the bytes it leaves, and the launch
state. -/

namespace Sys2Proof.Machine

/-! ### The answers of Load -/

theorem romFits_iff (rom : List Byte) : romFits rom = true ↔ rom.length ≤ 3584 := decide_eq_true_iff

theorem loadRom_of_fits {s : State} {rom : List Byte} (hrun : s.halt = .running) (hl : s.loaded = false)
    (hfits : rom.length ≤ 3584) : s.loadRom rom = .next (s.withRom rom) := by
  simp [State.loadRom, hrun, hl, (romFits_iff rom).2 hfits]

theorem loadRom_of_oversized {s : State} {rom : List Byte} (hrun : s.halt = .running) (hl : s.loaded = false)
    (hlong : 3584 < rom.length) : s.loadRom rom = .next { s with halt := .halted (.romTooLarge rom.length) } := by
  have hfits : romFits rom = false := Bool.eq_false_iff.2 (mt (romFits_iff rom).1 (Nat.not_le.2 hlong))
  simp [State.loadRom, hrun, hl, hfits, raiseFatal]

theorem loadRom_of_loaded {s : State} (rom : List Byte) (hrun : s.halt = .running) (hl : s.loaded = true) :
    s.loadRom rom = .refused .alreadyLoaded := by
  simp [State.loadRom, hrun, hl]

/-- A Load that answers a next state has copied the program or has set the halt latch. -/
theorem loadRom_next_cases {s t : State} {rom : List Byte} (h : s.loadRom rom = .next t) :
    t = s.withRom rom ∨ ∃ c, t = { s with halt := .halted c } := by
  unfold State.loadRom raiseFatal at h
  split at h
  · cases h
  · split at h
    · cases h
    · split at h
      · cases h; exact .inl rfl
      · cases h; exact .inr ⟨_, rfl⟩

/-- Settles O22: both answers without a copy. -/
theorem oversizedOrSecondLoadStops : Obligations.OversizedOrSecondLoadStops := by
  unfold Obligations.OversizedOrSecondLoadStops
  exact fun s rom hrun => ⟨loadRom_of_oversized hrun, loadRom_of_loaded rom hrun⟩

/-! ### The copy -/

/-- A copy changes memory, `pc` and the record of the Load alone. -/
theorem withRom_eq (s : State) (rom : List Byte) :
    s.withRom rom = { s with mem := (s.withRom rom).mem, pc := 0x200#12, loaded := true } := by
  simp only [State.withRom, State.setPc]
  rw [writeBytes_eq]
  rfl

/-- The copied bytes stand from 0x200 on, in the program's order. -/
theorem readByte_withRom_program (s : State) {rom : List Byte} (hfits : rom.length ≤ 3584) {k : Nat}
    (hk : k < rom.length) : (s.withRom rom).readByte (0x200#12 + BitVec.ofNat 12 k) = rom[k] :=
  readByte_writeBytes_at s loadBase rom k (by omega) hk

/-- Outside the copied range every byte is that of before. -/
theorem readByte_withRom_outside (s : State) {rom : List Byte} (hfits : rom.length ≤ 3584) {a : Addr}
    (ha : a.toNat < 0x200 ∨ 0x200 + rom.length ≤ a.toNat) : (s.withRom rom).readByte a = s.readByte a := by
  have hoffset : rom.length ≤ (a - loadBase).toNat := by
    unfold loadBase
    bv_omega
  have hread := readByte_writeBytes s loadBase a rom (by omega)
  rw [List.getElem?_eq_none hoffset] at hread
  exact hread

/-- Settles O21: the copy, its frame and the bytes it leaves. -/
theorem loadCopiesTheProgram : Obligations.LoadCopiesTheProgram := by
  unfold Obligations.LoadCopiesTheProgram
  exact fun s rom hrun hl hfits => ⟨s.withRom rom, loadRom_of_fits hrun hl hfits, withRom_eq s rom,
    fun k hk => readByte_withRom_program s hfits hk, fun a ha => readByte_withRom_outside s hfits ha⟩

/-- Settles O17: a copy keeps the canonical form of memory, and neither it nor the halt latch touches the rest. -/
theorem loadKeepsTheInvariant : Obligations.LoadKeepsTheInvariant := by
  unfold Obligations.LoadKeepsTheInvariant
  intro s t rom hs hload
  obtain rfl | ⟨c, rfl⟩ := loadRom_next_cases hload
  · rw [withRom_eq]
    exact { hs with memCanonical := writeBytes_wf s loadBase rom hs.memCanonical }
  · exact { hs with }

/-! ### The launch state -/

theorem reg_created (p : Params) (r : RegNum) : (State.created p).reg r = 0#8 :=
  Vector.getElem_replicate _

theorem keys_created (p : Params) (k : Nat) (h : k < 16) : (State.created p).keys[k] = false :=
  Vector.getElem_replicate _

/-- Settles O20: the copy on the created state changes memory, `pc` and the record of the Load, and the rest is as created. -/
theorem launchStateAfterLoad : Obligations.LaunchStateAfterLoad := by
  unfold Obligations.LaunchStateAfterLoad
  intro p rom hfits
  obtain ⟨t, hload, hframe, hprogram, hrest⟩ := loadCopiesTheProgram (State.created p) rom rfl rfl hfits
  obtain ⟨-, hcreated⟩ := creationInstallsTheFont
  obtain ⟨hfont, hzero⟩ := hcreated p
  refine ⟨t, hload, by rw [hframe], fun r => ?_, by rw [hframe]; rfl, by rw [hframe]; rfl, by rw [hframe]; rfl,
    by rw [hframe]; rfl, by rw [hframe]; rfl, fun x y _ _ => ?_, by rw [hframe]; rfl, by rw [hframe]; rfl,
    fun k hk => ?_, by rw [hframe]; rfl, by rw [hframe]; rfl, by rw [hframe]; rfl, hprogram, fun i hi => ?_,
    fun a hout hnot => ?_⟩
  · rw [reg_of_v (s := State.created p) (by rw [hframe]), reg_created]
  · rw [hframe]; exact pixelAt_blank x y
  · rw [hframe]; exact keys_created p k hk
  · rw [hrest _ (.inl (by rw [fontAddr_toNat i hi]; omega)), hfont i hi]
  · rw [hrest a hnot, hzero a hout]

end Sys2Proof.Machine
end

section
/-! SUPPORT. Calls, skips and keys (40_step_and_flow.md R105; 41_skip.md; 45_key_timer.md R190 to R192): the two answers of a
call and of a key skip, the skip as one write of `pc`, and the lowest pressed key. -/

namespace Sys2Proof.Machine

/-! ### Calls (R105, R214) -/

/-- A call on a stack with room pushes the advanced `pc` and jumps. -/
theorem exec_call_of_room {s : State} (n : Addr) (h : ∀ d, s.params.stackDepth = some d → s.stack.length < d) :
    exec (.call n) s = .next ((s.pushAddr s.pc).setPc n) := by
  simp [exec, execCall, stackFull_eq_false h]

/-- A call on a full stack is the fatal condition StackOverflow. -/
theorem exec_call_of_full {s : State} (n : Addr) {d : Nat} (hd : s.params.stackDepth = some d)
    (h : d ≤ s.stack.length) : exec (.call n) s = raiseFatal (.stackOverflow s.pc) s := by
  simp [exec, execCall, stackFull_of_bound hd, h]

/-- Settles O26: with room, a call is one push and one write of `pc`. -/
theorem callPushesTheReturnAddress : Obligations.CallPushesTheReturnAddress := by
  unfold Obligations.CallPushesTheReturnAddress
  exact fun n s => ⟨decode_wordNNN_call n, fun hroom => ⟨_, exec_call_of_room n hroom, rfl, rfl, rfl, fun _ => rfl⟩⟩

/-- Settles O27: on a full stack, a call only raises the fatal condition. -/
theorem callOnFullStackHalts : Obligations.CallOnFullStackHalts := by
  unfold Obligations.CallOnFullStackHalts
  intro n s d hd hfull
  rw [exec_call_of_full n hd hfull]
  exact raiseFatal_next _ s

/-- Settles O28: the return pops what the call pushed, and the advance between them writes `pc` alone. -/
theorem callThenReturnRoundTrip : Obligations.CallThenReturnRoundTrip := by
  unfold Obligations.CallThenReturnRoundTrip
  exact fun n s hroom => ⟨_, _, exec_call_of_room n hroom, exec_ret _, rfl, rfl, rfl, fun _ => rfl⟩

/-! ### Register skips (R120 to R123) -/

theorem exec_seImm (x : RegNum) (kk : Byte) (s : State) : exec (.seImm x kk) s = .next (s.skipIf (s.reg x == kk)) := rfl

theorem exec_sneImm (x : RegNum) (kk : Byte) (s : State) : exec (.sneImm x kk) s = .next (s.skipIf (s.reg x != kk)) := rfl

theorem exec_seReg (x y : RegNum) (s : State) : exec (.seReg x y) s = .next (s.skipIf (s.reg x == s.reg y)) := rfl

theorem exec_sneReg (x y : RegNum) (s : State) : exec (.sneReg x y) s = .next (s.skipIf (s.reg x != s.reg y)) := rfl

/-- A skip on equality passes two more bytes exactly when the values are equal, and changes `pc` alone. -/
theorem skips_on_eq {i : Instr} {s : State} {a b : Byte} (h : exec i s = .next (s.skipIf (a == b))) :
    ∃ t, exec i s = .next t ∧ t.pc = (if a = b then s.pc + 2 else s.pc) ∧ OnlyPc s t :=
  ⟨_, h, by simp, onlyPc_skipIf s _⟩

/-- A skip on difference passes two more bytes exactly when the values differ, and changes `pc` alone. -/
theorem skips_on_ne {i : Instr} {s : State} {a b : Byte} (h : exec i s = .next (s.skipIf (a != b))) :
    ∃ t, exec i s = .next t ∧ t.pc = (if a = b then s.pc else s.pc + 2) ∧ OnlyPc s t := by
  refine ⟨_, h, ?_, onlyPc_skipIf s _⟩
  by_cases hab : a = b <;> simp [hab]

/-- Settles O29: two skips on equality and two on difference. -/
theorem registerSkips : Obligations.RegisterSkips := by
  unfold Obligations.RegisterSkips
  exact ⟨fun x kk s => ⟨decode_wordXKK_seImm x kk, skips_on_eq (exec_seImm x kk s)⟩,
    fun x kk s => ⟨decode_wordXKK_sneImm x kk, skips_on_ne (exec_sneImm x kk s)⟩,
    fun x y s => ⟨decode_wordXYN_seReg x y, skips_on_eq (exec_seReg x y s)⟩,
    fun x y s => ⟨decode_wordXYN_sneReg x y, skips_on_ne (exec_sneReg x y s)⟩⟩

/-! ### Key skips (R190, R191, R213) -/

/-- With Vx at most 15 a key skip is a skip on the level of that key. -/
theorem skipOnKey_inside {s : State} {x : RegNum} (wanted : Bool) (h : (s.reg x).toNat < 16) :
    s.skipOnKey x wanted = .next (s.skipIf (s.snapshot[(s.reg x).toNat] == wanted)) := by
  simp [State.skipOnKey, keyAt_inside h]

/-- With Vx above 15 it is the fatal condition KeyIndexOutOfRange. -/
theorem skipOnKey_outside {s : State} {x : RegNum} (wanted : Bool) (h : 15 < (s.reg x).toNat) :
    s.skipOnKey x wanted = raiseFatal (.keyIndexOutOfRange (s.reg x)) s := by
  simp [State.skipOnKey, keyAt_outside h]

/-- Settles O30: the skip is taken when the level is the one wanted, which for `ExA1` is the level of a key not pressed. -/
theorem keySkips : Obligations.KeySkips := by
  unfold Obligations.KeySkips
  refine fun x s => ⟨decode_wordXKK_skp x, decode_wordXKK_sknp x, fun h => ⟨?_, ?_⟩⟩
  · exact ⟨_, skipOnKey_inside true h, by simp, onlyPc_skipIf s _⟩
  · refine ⟨_, skipOnKey_inside false h, ?_, onlyPc_skipIf s _⟩
    cases s.snapshot[(s.reg x).toNat] <;> simp

/-- Settles O31: both key skips raise the fatal condition before any write. -/
theorem keyIndexAbove15Halts : Obligations.KeyIndexAbove15Halts := by
  unfold Obligations.KeyIndexAbove15Halts
  intro x s h
  have hfatal : ∀ wanted, ∃ t, s.skipOnKey x wanted = .next t ∧
      t.halt = .halted (.keyIndexOutOfRange (s.reg x)) ∧ OnlyHalt s t := fun wanted => by
    rw [skipOnKey_outside wanted h]
    exact raiseFatal_next _ s
  exact ⟨hfatal true, hfatal false⟩

/-! ### The key wait (R192) -/

/-- The lowest pressed key is the pressed one below which none is. -/
theorem lowestKey_eq_some {ks : Keys} {k : Nat} (hk : k < 16) (hpressed : ks[k] = true)
    (hbelow : ∀ j, (hj : j < k) → ks[j] = false) : lowestKey ks = some k := by
  unfold lowestKey
  rw [List.find?_range_eq_some]
  refine ⟨by simp [hk, hpressed], List.mem_range.2 hk, fun j hj => ?_⟩
  have hj16 : j < 16 := hj.trans hk
  simp [hj16, hbelow j hj]

theorem exec_ldKey_none {s : State} (x : RegNum) (h : lowestKey s.snapshot = none) :
    exec (.ldKey x) s = .next (s.setPc (s.pc - 2)) := by
  simp [exec, execLdKey, h]

theorem exec_ldKey_some {s : State} (x : RegNum) {k : Nat} (h : lowestKey s.snapshot = some k) :
    exec (.ldKey x) s = .next (s.setReg x (BitVec.ofNat 8 k)) := by
  simp [exec, execLdKey, h]

/-- Settles O50: one write of `pc` where no key is pressed, else one write of Vx with the lowest pressed key. -/
theorem keyWaitPollsOrTakesLowest : Obligations.KeyWaitPollsOrTakesLowest := by
  unfold Obligations.KeyWaitPollsOrTakesLowest
  refine fun x s => ⟨decode_wordXKK_ldKey x, fun hnone => ?_, fun k hk hpressed hbelow => ?_⟩
  · exact ⟨_, exec_ldKey_none x (lowestKey_none.2 hnone), rfl, onlyPc_setPc s _⟩
  · exact writes_one_reg (exec_ldKey_some x (lowestKey_eq_some hk hpressed hbelow))

end Sys2Proof.Machine
end

section
/-! SUPPORT. The instructions that write VF as a flag (42_alu.md R136 to R140), each one write of Vx and one of VF, and the
glyph address (43_index_memory.md R152). -/

namespace Sys2Proof.Machine

/-! ### Vx, then VF: the sum and the differences (R136, R137, R139) -/

theorem exec_addReg (x y : RegNum) (s : State) : exec (.addReg x y) s =
    .next ((s.setReg x (s.reg x + s.reg y)).setFlag (carryFlag (s.reg x) (s.reg y))) := rfl

theorem exec_sub (x y : RegNum) (s : State) : exec (.sub x y) s =
    .next ((s.setReg x (s.reg x - s.reg y)).setFlag (borrowFlag (s.reg x) (s.reg y))) := rfl

theorem exec_subn (x y : RegNum) (s : State) : exec (.subn x y) s =
    .next ((s.setReg x (s.reg y - s.reg x)).setFlag (borrowFlag (s.reg y) (s.reg x))) := rfl

/-- Where Vx is written first and VF last, VF ends as the flag whatever x is, and the other registers but Vx are kept. -/
theorem writes_reg_then_flag {i : Instr} {s : State} {x : RegNum} {b f : Byte}
    (h : exec i s = .next ((s.setReg x b).setFlag f)) :
    ∃ t, exec i s = .next t ∧ t.reg vF = f ∧ (x ≠ vF → t.reg x = b) ∧
      (∀ r, r ≠ x → r ≠ vF → t.reg r = s.reg r) ∧ OnlyRegs s t := by
  refine ⟨_, h, by simp [reg_setFlag], fun hx => by simp [reg_setFlag, hx], fun r hrx hrF => ?_,
    (onlyRegs_setReg _ _ _).trans (onlyRegs_setReg _ _ _)⟩
  rw [reg_setFlag, if_neg hrF, reg_setReg, if_neg hrx]

/-- The difference of two bytes as naturals mod 256. -/
theorem byte_sub_toNat (a b : Byte) : (a - b).toNat = (a.toNat + 256 - b.toNat) % 256 := by
  bv_omega

/-- Settles O35: the sum is written before the carry of the old operands. -/
theorem addGivesSumThenCarry : Obligations.AddGivesSumThenCarry := by
  unfold Obligations.AddGivesSumThenCarry
  intro x y s
  obtain ⟨t, hnext, hflag, hdest, hrest, honly⟩ := writes_reg_then_flag (exec_addReg x y s)
  refine ⟨decode_wordXYN_addReg x y, t, hnext, hflag, fun hx => ?_, hrest, honly⟩
  rw [hdest hx, BitVec.toNat_add]

/-- Settles O36: each difference is written before the borrow of the old operands. -/
theorem subtractionsGiveBorrow : Obligations.SubtractionsGiveBorrow := by
  unfold Obligations.SubtractionsGiveBorrow
  intro x y s
  constructor
  · obtain ⟨t, hnext, hflag, hdest, hrest, honly⟩ := writes_reg_then_flag (exec_sub x y s)
    exact ⟨decode_wordXYN_sub x y, t, hnext, hflag, fun hx => by rw [hdest hx, byte_sub_toNat], hrest, honly⟩
  · obtain ⟨t, hnext, hflag, hdest, hrest, honly⟩ := writes_reg_then_flag (exec_subn x y s)
    exact ⟨decode_wordXYN_subn x y, t, hnext, hflag, fun hx => by rw [hdest hx, byte_sub_toNat], hrest, honly⟩

/-! ### VF, then Vx: the shifts (R138, R140) -/

theorem exec_shr (x y : RegNum) (s : State) : exec (.shr x y) s = .next (s.shiftReg x shrFlag (· >>> 1)) := rfl

theorem exec_shl (x y : RegNum) (s : State) : exec (.shl x y) s = .next (s.shiftReg x shlFlag (· <<< 1)) := rfl

/-- What a shift leaves: the shifted value and the flag where x is not F, the shift of the flag in VF where it is, and the other
registers as before. -/
theorem shifts_reg {i : Instr} {s : State} {x : RegNum} {flag shift : Byte → Byte}
    (h : exec i s = .next (s.shiftReg x flag shift)) :
    ∃ t, exec i s = .next t ∧ (x ≠ vF → t.reg x = shift (s.reg x) ∧ t.reg vF = flag (s.reg x)) ∧
      (x = vF → t.reg vF = shift (flag (s.reg x))) ∧
      (∀ r, r ≠ x → r ≠ vF → t.reg r = s.reg r) ∧ OnlyRegs s t := by
  refine ⟨_, h, fun hx => ?_, fun hx => ?_, fun r hrx hrF => ?_, onlyRegs_shiftReg _ _ _ _⟩
  · simp [reg_shiftReg, hx, Ne.symm hx]
  · simp [reg_shiftReg, hx]
  · rw [reg_shiftReg, if_neg hrx, if_neg hrF]

theorem shrFlag_toNat (a : Byte) : (shrFlag a).toNat = a.toNat % 2 := by
  simp [shrFlag, Nat.and_one_is_mod]

/-- Bit 7 of a byte is its sign bit, so it is set from 128 on. -/
theorem shlFlag_eq (a : Byte) : shlFlag a = if 128 ≤ a.toNat then 0x80#8 else 0x00#8 := by
  have hmask : (0x80#8) = BitVec.twoPow 8 7 := rfl
  have hmsb : a.getLsbD 7 = decide (128 ≤ a.toNat) := BitVec.msb_eq_decide a
  rw [shlFlag, hmask, BitVec.and_twoPow, hmsb]
  simp

theorem byte_shr_toNat (a : Byte) : (a >>> 1).toNat = a.toNat / 2 := by
  simp [Nat.shiftRight_eq_div_pow]

theorem byte_shl_toNat (a : Byte) : (a <<< 1).toNat = 2 * a.toNat % 256 := by
  rw [BitVec.toNat_shiftLeft, Nat.shiftLeft_eq, Nat.mul_comm]

/-- The bit a right shift drops is dropped again by a second shift. -/
theorem shrFlag_shr (a : Byte) : shrFlag a >>> 1 = 0#8 := by
  apply BitVec.eq_of_toNat_eq
  rw [byte_shr_toNat, shrFlag_toNat]
  simp only [BitVec.toNat_ofNat]
  omega

/-- So is the bit a left shift drops, left as bit 7. -/
theorem shlFlag_shl (a : Byte) : shlFlag a <<< 1 = 0#8 := by
  rw [shlFlag_eq]
  split <;> rfl

/-- Settles O37: y is in neither effect, and a flag that is itself shifted ends as 0. -/
theorem shiftsIgnoreVy : Obligations.ShiftsIgnoreVy := by
  unfold Obligations.ShiftsIgnoreVy
  intro x y s
  constructor
  · obtain ⟨t, hnext, hdest, hvF, hrest, honly⟩ := shifts_reg (exec_shr x y s)
    refine ⟨decode_wordXYN_shr x y, t, hnext, fun hx => ?_, fun hx => ?_, hrest, honly⟩
    · obtain ⟨hreg, hflag⟩ := hdest hx
      rw [hreg, hflag, byte_shr_toNat, shrFlag_toNat]
      exact ⟨rfl, rfl⟩
    · rw [hvF hx, shrFlag_shr]
  · obtain ⟨t, hnext, hdest, hvF, hrest, honly⟩ := shifts_reg (exec_shl x y s)
    refine ⟨decode_wordXYN_shl x y, t, hnext, fun hx => ?_, fun hx => ?_, hrest, honly⟩
    · obtain ⟨hreg, hflag⟩ := hdest hx
      rw [hreg, hflag, byte_shl_toNat, shlFlag_eq]
      exact ⟨rfl, rfl⟩
    · rw [hvF hx, shlFlag_shl]

/-! ### The glyph address (R152) -/

theorem exec_ldF (x : RegNum) (s : State) : exec (.ldF x) s = .next (s.setIndex (glyphAddr (s.reg x))) := rfl

/-- Settles O40: one write of `I` with the glyph address. -/
theorem fontAddress : Obligations.FontAddress := by
  unfold Obligations.FontAddress
  exact fun x s => ⟨decode_wordXKK_ldF x, _, exec_ldF x s, glyphAddr_toNat (s.reg x), onlyIndex_setIndex s _⟩

end Sys2Proof.Machine
end

section
/-! SUPPORT. The instructions that access memory at `I` (43_index_memory.md R153 to R155; 20_memory.md R45, R57): what each
address reads as after a store, what each register holds after a load, and what the next fetch sees. -/

namespace Sys2Proof.Machine

/-! ### The effects -/

theorem exec_bcd (x : RegNum) (s : State) :
    exec (.bcd x) s = .next (s.writeBytes s.index (bcdDigits (s.reg x))) := rfl

theorem exec_store (x : RegNum) (s : State) :
    exec (.store x) s = .next (s.writeBytes s.index (s.regBlock x)) := rfl

theorem exec_load (x : RegNum) (s : State) : exec (.load x) s = .next (s.loadRegs (x.toNat + 1)) := rfl

/-- A run of writes changes memory alone. -/
theorem onlyMem_writeBytes (s : State) (a : Addr) (bs : List Byte) : OnlyMem s (s.writeBytes a bs) :=
  writeBytes_eq s a bs

@[simp] theorem writeBytes_pc (s : State) (a : Addr) (bs : List Byte) : (s.writeBytes a bs).pc = s.pc := by
  rw [writeBytes_eq]

@[simp] theorem writeBytes_index (s : State) (a : Addr) (bs : List Byte) : (s.writeBytes a bs).index = s.index := by
  rw [writeBytes_eq]

/-! ### A byte after a store -/

theorem byteAfterStore_inside {s : State} {x : RegNum} {a : Addr} (h : (a - s.index).toNat ≤ x.toNat) :
    s.byteAfterStore x a = s.reg (BitVec.ofNat 4 (a - s.index).toNat) := if_pos h

theorem byteAfterStore_outside {s : State} {x : RegNum} {a : Addr} (h : ¬ (a - s.index).toNat ≤ x.toNat) :
    s.byteAfterStore x a = s.readByte a := if_neg h

/-- After `Fx55` every address reads as the statements' description of a store says (R154). -/
theorem readByte_store (s : State) (x : RegNum) (a : Addr) :
    (s.writeBytes s.index (s.regBlock x)).readByte a = s.byteAfterStore x a := by
  have hx : x.toNat < 16 := x.isLt
  rw [readByte_writeBytes _ _ _ _ (by rw [regBlock_length]; omega)]
  by_cases h : (a - s.index).toNat ≤ x.toNat
  · rw [byteAfterStore_inside h, regBlock_get s x _ h, Option.getD_some]
  · rw [byteAfterStore_outside h, List.getElem?_eq_none (by rw [regBlock_length]; omega), Option.getD_none]

/-- An offset from `I` below 4096 is recovered from the address (R45). -/
theorem offset_toNat (i : Addr) {k : Nat} (h : k < 4096) : (i + BitVec.ofNat 12 k - i).toNat = k := by
  bv_omega

/-- Register r of a stored block is at `I + r` (R154). -/
theorem byteAfterStore_at (s : State) {x r : RegNum} (h : r.toNat ≤ x.toNat) :
    s.byteAfterStore x (s.index + BitVec.ofNat 12 r.toNat) = s.reg r := by
  have hr : r.toNat < 16 := r.isLt
  have hoffset : (s.index + BitVec.ofNat 12 r.toNat - s.index).toNat = r.toNat := offset_toNat _ (by omega)
  rw [byteAfterStore_inside (by rwa [hoffset]), hoffset, BitVec.ofNat_toNat, BitVec.setWidth_eq]

/-- An address is its offset from `I` added to `I`. -/
theorem index_add_offset (i a : Addr) : i + BitVec.ofNat 12 (a - i).toNat = a := by
  rw [BitVec.ofNat_toNat, BitVec.setWidth_eq]
  exact add_sub_cancel i a

/-- Settles O42: a byte after the store, at an address of the block and at any other. -/
theorem storeWritesRegisterBlock : Obligations.StoreWritesRegisterBlock := by
  unfold Obligations.StoreWritesRegisterBlock
  refine fun x s => ⟨decode_wordXKK_store x, _, exec_store x s, fun r hr => ?_, fun a ha => ?_, onlyMem_writeBytes _ _ _⟩
  · rw [readByte_store, byteAfterStore_at s hr]
  · have hout : ¬ (a - s.index).toNat ≤ x.toNat := fun h => ha _ h (index_add_offset s.index a).symm
    rw [readByte_store, byteAfterStore_outside hout]

/-! ### A byte after the digits -/

/-- After `Fx33` every address reads as the statements' description of the digits says (R153). -/
theorem readByte_bcd (s : State) (x : RegNum) (a : Addr) :
    (s.writeBytes s.index (bcdDigits (s.reg x))).readByte a = s.byteAfterBcd x a := by
  have hlength : (bcdDigits (s.reg x)).length = 3 := rfl
  rw [readByte_writeBytes _ _ _ _ (by omega), State.byteAfterBcd]
  by_cases h0 : a = s.index
  · have hoffset : (a - s.index).toNat = 0 := by bv_omega
    rw [if_pos h0, hoffset]; rfl
  by_cases h1 : a = s.index + 1
  · have hoffset : (a - s.index).toNat = 1 := by bv_omega
    rw [if_neg h0, if_pos h1, hoffset]; rfl
  by_cases h2 : a = s.index + 2
  · have hoffset : (a - s.index).toNat = 2 := by bv_omega
    rw [if_neg h0, if_neg h1, if_pos h2, hoffset]; rfl
  · have hoffset : 3 ≤ (a - s.index).toNat := by bv_omega
    rw [if_neg h0, if_neg h1, if_neg h2, List.getElem?_eq_none (by omega), Option.getD_none]

/-- A digit, or the hundreds of a byte, fits in a byte. -/
theorem byte_ofNat_toNat {n : Nat} (h : n < 256) : (BitVec.ofNat 8 n).toNat = n := by
  rw [BitVec.toNat_ofNat, Nat.mod_eq_of_lt h]

/-- Settles O41: a byte after `Fx33` at each of the three addresses, which differ, and at any other. -/
theorem bcdStoresThreeDigits : Obligations.BcdStoresThreeDigits := by
  unfold Obligations.BcdStoresThreeDigits
  intro x s
  have hlt : (s.reg x).toNat < 256 := (s.reg x).isLt
  have h10 : s.index + 1 ≠ s.index := by bv_omega
  have h20 : s.index + 2 ≠ s.index := by bv_omega
  have h21 : s.index + 2 ≠ s.index + 1 := by bv_omega
  refine ⟨decode_wordXKK_bcd x, _, exec_bcd x s, ?_, ?_, ?_, fun a h0 h1 h2 => ?_, onlyMem_writeBytes _ _ _⟩ <;>
    rw [readByte_bcd, State.byteAfterBcd]
  · rw [if_pos rfl, byte_ofNat_toNat (by omega)]
  · rw [if_neg h10, if_pos rfl, byte_ofNat_toNat (by omega)]
  · rw [if_neg h20, if_neg h21, if_pos rfl, byte_ofNat_toNat (by omega)]
  · rw [if_neg h0, if_neg h1, if_neg h2]

/-! ### The block load -/

/-- What `Fx65` leaves in each register (R155). -/
theorem reg_load (s : State) (x r : RegNum) : (s.loadRegs (x.toNat + 1)).reg r =
    if r.toNat ≤ x.toNat then s.readByte (s.index + BitVec.ofNat 12 r.toNat) else s.reg r := by
  rw [reg_loadRegs s _ x.isLt]
  exact if_congr Nat.lt_succ_iff rfl rfl

/-- Settles O43: the block load, register by register. -/
theorem loadReadsRegisterBlock : Obligations.LoadReadsRegisterBlock := by
  unfold Obligations.LoadReadsRegisterBlock
  exact fun x s => ⟨decode_wordXKK_load x, _, exec_load x s, reg_load s x, onlyRegs_loadRegs s _⟩

/-- Settles O44: a register up to x is read back from the address the store put it at; one above x was never touched. -/
theorem storeThenLoadRoundTrip : Obligations.StoreThenLoadRoundTrip := by
  unfold Obligations.StoreThenLoadRoundTrip
  intro x s w hw
  refine ⟨_, _, exec_store x s, exec_load x _, fun r => ?_, ?_⟩
  · rw [reg_load]
    split
    · next hr =>
      have hread := readByte_store s x (s.index + BitVec.ofNat 12 r.toNat)
      rw [byteAfterStore_at s hr] at hread
      simp only [writeBytes_index]
      exact hread
    · next hr => exact hw r (Nat.lt_of_not_le hr)
  · obtain ⟨heq, -⟩ := onlyRegs_loadRegs { s.writeBytes s.index (s.regBlock x) with v := w } (x.toNat + 1)
    rw [heq]
    exact writeBytes_index _ _ _

/-! ### The next fetch (R57) -/

/-- Settles O45: a store does not move `pc`, so the next fetch reads the two bytes there as the store left them. -/
theorem storesAreSeenByTheNextFetch : Obligations.StoresAreSeenByTheNextFetch := by
  unfold Obligations.StoresAreSeenByTheNextFetch
  refine fun x s => ⟨⟨_, exec_store x s, ?_⟩, ⟨_, exec_bcd x s, ?_⟩⟩
  · rw [State.fetchWord, writeBytes_pc, readByte_store, readByte_store, wordOfBytes]
  · rw [State.fetchWord, writeBytes_pc, readByte_bcd, readByte_bcd, wordOfBytes]

end Sys2Proof.Machine
end

section
/-! SUPPORT. The sprite draw (44_display.md R172): its opcode's effect on the pixels and on VF, and the second of two equal
draws. -/

namespace Sys2Proof.Machine

/-- The state a draw answers (R172). -/
def State.afterDraw (s : State) (x y : RegNum) (n : Nibble) : State :=
  ((s.setFlag (if (s.drawn x y n).hit then 1#8 else 0#8)).setDisp (s.drawn x y n).disp).emitUpdate

theorem exec_drw_afterDraw (x y : RegNum) (n : Nibble) (s : State) :
    exec (.drw x y n) s = .next (s.afterDraw x y n) := exec_drw x y n s

@[simp] theorem afterDraw_disp (s : State) (x y : RegNum) (n : Nibble) :
    (s.afterDraw x y n).disp = (s.drawn x y n).disp := rfl

/-- VF ends as the collision flag. -/
theorem afterDraw_vF (s : State) (x y : RegNum) (n : Nibble) :
    (s.afterDraw x y n).reg vF = if (s.drawn x y n).hit then 1#8 else 0#8 := reg_setReg_same s vF _

/-- No other register is written. -/
theorem afterDraw_reg {s : State} (x y : RegNum) (n : Nibble) {r : RegNum} (h : r ≠ vF) :
    (s.afterDraw x y n).reg r = s.reg r := (reg_setFlag s r _).trans (if_neg h)

/-- VF is 1 exactly on a collision. -/
theorem afterDraw_vF_eq_one {s : State} {x y : RegNum} {n : Nibble} :
    (s.afterDraw x y n).reg vF = 1#8 ↔ s.Collides x y n := by
  rw [afterDraw_vF, ← drawn_hit]
  cases (s.drawn x y n).hit <;> simp

theorem afterDraw_vF_of_no_collision {s : State} {x y : RegNum} {n : Nibble} (h : ¬ s.Collides x y n) :
    (s.afterDraw x y n).reg vF = 0#8 := by
  have hmiss : (s.drawn x y n).hit = false := Bool.eq_false_iff.2 (mt (drawn_hit s x y n).1 h)
  simp [afterDraw_vF, hmiss]

/-- Settles O47: the pixels and the collision are those of the drawn canvas. -/
theorem drawXorsClipsAndCollides : Obligations.DrawXorsClipsAndCollides := by
  unfold Obligations.DrawXorsClipsAndCollides
  exact fun x y n s => ⟨decode_wordXYN_drw x y n, s.afterDraw x y n, exec_drw_afterDraw x y n s,
    fun px py hx hy => drawn_disp s x y n px py hx hy, afterDraw_vF_eq_one.2, afterDraw_vF_of_no_collision,
    fun r hr => afterDraw_reg x y n hr, rfl, rfl, fun _ => rfl⟩

/-! ### Two equal draws -/

/-- The sprite of a draw depends on its two coordinates, on `I` and on memory alone. -/
theorem spriteOn_congr {s t : State} {x y : RegNum} (n : Nibble) (px py : Nat) (hx : t.reg x = s.reg x)
    (hy : t.reg y = s.reg y) (hi : t.index = s.index) (hm : SameMemory s t) :
    t.spriteOn x y n px py = s.spriteOn x y n px py := by
  simp only [State.spriteOn, hx, hy, hi, hm _]

/-- With its coordinates not in VF, a draw leaves the sprite of the same draw after it. -/
theorem spriteOn_afterDraw {s : State} {x y : RegNum} (n : Nibble) (hx : x ≠ vF) (hy : y ≠ vF) (px py : Nat) :
    (s.afterDraw x y n).advance.spriteOn x y n px py = s.spriteOn x y n px py :=
  spriteOn_congr n px py (afterDraw_reg x y n hx) (afterDraw_reg x y n hy) rfl fun _ => rfl

/-- A second equal draw collides exactly where a 1 bit of the sprite fell on a pixel that was off at first: the first draw
turned that pixel on, and turned off the lit ones. -/
theorem second_draw_collides {s : State} {x y : RegNum} {n : Nibble} (hx : x ≠ vF) (hy : y ≠ vF) :
    (s.afterDraw x y n).advance.Collides x y n ↔
      ∃ px py, px < 64 ∧ py < 32 ∧ s.spriteOn x y n px py = true ∧ pixelAt s.disp px py = false := by
  unfold State.Collides
  refine exists_congr fun px => exists_congr fun py => and_congr_right fun hpx => and_congr_right fun hpy => ?_
  rw [spriteOn_afterDraw n hx hy, advance_disp, afterDraw_disp, drawn_disp s x y n px py hpx hpy]
  refine and_congr_right fun hon => ?_
  simp [hon]

/-- A second equal draw undoes the first: each pixel is XORed twice with the same sprite pixel. -/
theorem second_draw_disp {s : State} {x y : RegNum} {n : Nibble} (hx : x ≠ vF) (hy : y ≠ vF) :
    ((s.afterDraw x y n).advance.afterDraw x y n).disp = s.disp := by
  refine display_ext fun px py hpx hpy => ?_
  rw [afterDraw_disp, drawn_disp _ x y n px py hpx hpy, spriteOn_afterDraw n hx hy, advance_disp, afterDraw_disp,
    drawn_disp s x y n px py hpx hpy]
  simp

/-- Settles O48: the second draw undoes the first on the display, and its VF is its collision. -/
theorem drawTwiceRestoresTheDisplay : Obligations.DrawTwiceRestoresTheDisplay := by
  unfold Obligations.DrawTwiceRestoresTheDisplay
  exact fun x y n s hx hy => ⟨_, _, exec_drw_afterDraw x y n s, exec_drw_afterDraw x y n _, second_draw_disp hx hy,
    afterDraw_vF_eq_one.trans (second_draw_collides hx hy)⟩

end Sys2Proof.Machine
end

section
/-! SUPPORT. Rules over all instructions (10_state.md R11, R12, R18, R19; 60_exceptions.md R227): the registers an instruction
does not write, and the fields it does not read. -/

namespace Sys2Proof.Machine

/-! ### The registers not written (R12) -/

theorem reg_setReg_of_ne {s : State} {r x : RegNum} {b : Byte} (h : r ≠ x) : (s.setReg x b).reg r = s.reg r := by
  rw [reg_setReg, if_neg h]

theorem reg_setFlag_of_ne {s : State} {r : RegNum} {b : Byte} (h : r ≠ vF) : (s.setFlag b).reg r = s.reg r :=
  reg_setReg_of_ne h

theorem reg_shiftReg_of_ne {s : State} {r x : RegNum} {flag shift : Byte → Byte} (hx : r ≠ x) (hF : r ≠ vF) :
    (s.shiftReg x flag shift).reg r = s.reg r := by
  rw [reg_shiftReg, if_neg hx, if_neg hF]

/-- A call writes no register. -/
theorem exec_call_v {n : Addr} {s t : State} (h : exec (.call n) s = .next t) : t.v = s.v := by
  obtain ⟨u, hu, honly⟩ := execCall_only n s
  obtain rfl : u = t := by simpa using hu.symm.trans h
  obtain ⟨heq, -⟩ | ⟨heq, -⟩ := honly <;> rw [heq]

/-- Nor does a key skip. -/
theorem skipOnKey_v {x : RegNum} {wanted : Bool} {s t : State} (h : s.skipOnKey x wanted = .next t) : t.v = s.v := by
  obtain ⟨u, hu, honly⟩ := skipOnKey_only s x wanted
  obtain rfl : u = t := by simpa using hu.symm.trans h
  obtain ⟨heq, -⟩ | ⟨heq, -⟩ := honly <;> rw [heq]

@[simp] theorem writeBytes_v (s : State) (a : Addr) (bs : List Byte) : (s.writeBytes a bs).v = s.v := by
  rw [writeBytes_eq]

/-- Settles O53: by the instruction's kind of write. One register; a register and VF; the block; VF by the draw; none. -/
theorem registersWrittenOnlyWhereNamed : Obligations.RegistersWrittenOnlyWhereNamed := by
  unfold Obligations.RegistersWrittenOnlyWhereNamed
  intro i s t r h hdest hflag
  cases i
  case ldImm | addImm | ldReg | orReg | andReg | xorReg | rnd | ldVxDT =>
    cases h
    exact reg_setReg_of_ne (by simpa [Instr.writesReg] using hdest)
  case addReg | sub | subn =>
    cases h
    rw [reg_setFlag_of_ne (by simpa [Instr.setsFlag] using hflag)]
    exact reg_setReg_of_ne (by simpa [Instr.writesReg] using hdest)
  case shr | shl =>
    cases h
    exact reg_shiftReg_of_ne (by simpa [Instr.writesReg] using hdest) (by simpa [Instr.setsFlag] using hflag)
  case load x =>
    cases h
    have hr : ¬ r.toNat ≤ x.toNat := by simpa [Instr.writesReg] using hdest
    rw [reg_load, if_neg hr]
  case ldKey x =>
    cases h
    split
    · rfl
    · exact reg_setReg_of_ne (by simpa [Instr.writesReg] using hdest)
  case drw x y n =>
    cases (exec_drw_afterDraw x y n s).symm.trans h
    exact afterDraw_reg x y n (by simpa [Instr.setsFlag] using hflag)
  case call => exact reg_of_v (exec_call_v h) r
  case skp | sknp => exact reg_of_v (skipOnKey_v h) r
  case bcd | store => cases h; exact reg_of_v (writeBytes_v _ _ _) r
  case cls | ret | jp | jpV0 | seImm | sneImm | seReg | sneReg | ldI | addI | ldF | ldDT | ldST => cases h; rfl

/-! ### The fields not read (R18, R19, R21, R227) -/

/-- A change of the fields that an instruction does not read, or that few do: the sound timer, the tick counter, the cells, the
random byte and the key snapshot. -/
structure Overlay where
  st : Byte → Byte := id
  tick : Nat → Nat := id
  frame : Frame → Frame := id
  keys : Keys → Keys := id
  buzzer : Bool → Bool := id
  ready : Bool → Bool := id
  rand : Byte → Byte := id
  snapshot : Keys → Keys := id

/-- The state with those fields changed. -/
def Overlay.apply (o : Overlay) (s : State) : State :=
  { s with
    st := o.st s.st, tick := o.tick s.tick, frame := o.frame s.frame, keys := o.keys s.keys, buzzer := o.buzzer s.buzzer,
    ready := o.ready s.ready, rand := o.rand s.rand, snapshot := o.snapshot s.snapshot }

theorem writeBytes_overlay (o : Overlay) (s : State) (a : Addr) (bs : List Byte) :
    (o.apply s).writeBytes a bs = o.apply (s.writeBytes a bs) :=
  writeBytes_congr o.apply (fun _ _ _ => rfl) s a bs

theorem loadRegs_overlay (o : Overlay) (s : State) (n : Nat) : (o.apply s).loadRegs n = o.apply (s.loadRegs n) :=
  loadRegs_congr o.apply (fun _ _ _ => rfl) (fun _ => rfl) (fun _ => rfl) s n

/-- A call reads the stack, its bound and `pc` alone. -/
theorem execCall_overlay (o : Overlay) (n : Addr) (s : State) :
    execCall n (o.apply s) = mapNext o.apply (execCall n s) := by
  have hfull : (o.apply s).stackFull = s.stackFull := rfl
  unfold execCall
  rw [hfull]
  cases s.stackFull <;> rfl

/-- The key test reads the key snapshot alone. -/
theorem keyAt_congr {s t : State} (h : t.snapshot = s.snapshot) (k : Byte) : t.keyAt k = s.keyAt k := by
  simp only [State.keyAt, h]

/-- A key skip reads the key snapshot, and of the other fields none. -/
theorem skipOnKey_overlay {o : Overlay} (h : o.snapshot = id) (s : State) (x : RegNum) (wanted : Bool) :
    (o.apply s).skipOnKey x wanted = mapNext o.apply (s.skipOnKey x wanted) := by
  have hkey : (o.apply s).keyAt ((o.apply s).reg x) = s.keyAt (s.reg x) :=
    keyAt_congr (by simp [Overlay.apply, h]) _
  unfold State.skipOnKey
  rw [hkey]
  cases s.keyAt (s.reg x) <;> rfl

/-- So does the key wait. -/
theorem execLdKey_overlay {o : Overlay} (h : o.snapshot = id) (x : RegNum) (s : State) :
    execLdKey x (o.apply s) = mapNext o.apply (execLdKey x s) := by
  have hsnapshot : (o.apply s).snapshot = s.snapshot := by simp [Overlay.apply, h]
  unfold execLdKey
  rw [hsnapshot]
  cases lowestKey s.snapshot <;> rfl

/-- The draw of a random byte reads the random byte. -/
theorem execRnd_overlay {o : Overlay} (h : o.rand = id) (x : RegNum) (kk : Byte) (s : State) :
    execRnd x kk (o.apply s) = mapNext o.apply (execRnd x kk s) := by
  have hrand : (o.apply s).rand = s.rand := by simp [Overlay.apply, h]
  unfold execRnd
  rw [hrand]
  rfl

/-- The write of the sound timer leaves it at Vx, so there the timer may not be changed after it. -/
theorem execLdST_overlay {o : Overlay} (h : o.st = id) (x : RegNum) (s : State) :
    execLdST x (o.apply s) = mapNext o.apply (execLdST x s) := by
  simp [execLdST, mapNext, Overlay.apply, State.setSt, State.reg, h]

/-- An instruction commutes with a change of the fields it does not read or write. -/
theorem exec_overlay (o : Overlay) (i : Instr) (s : State) (hst : (∀ x, i ≠ .ldST x) ∨ o.st = id)
    (hkeys : ((∀ x, i ≠ .skp x) ∧ (∀ x, i ≠ .sknp x) ∧ ∀ x, i ≠ .ldKey x) ∨ o.snapshot = id)
    (hrand : (∀ x kk, i ≠ .rnd x kk) ∨ o.rand = id) :
    exec i (o.apply s) = mapNext o.apply (exec i s) := by
  cases i
  case call n => exact execCall_overlay o n s
  case bcd x => exact congrArg Host.Outcome.next (writeBytes_overlay o s _ _)
  case store x => exact congrArg Host.Outcome.next (writeBytes_overlay o s _ _)
  case load x => exact congrArg Host.Outcome.next (loadRegs_overlay o s _)
  case skp x => exact skipOnKey_overlay (hkeys.resolve_left fun ⟨hskp, _, _⟩ => hskp x rfl) s x true
  case sknp x => exact skipOnKey_overlay (hkeys.resolve_left fun ⟨_, hsknp, _⟩ => hsknp x rfl) s x false
  case ldKey x => exact execLdKey_overlay (hkeys.resolve_left fun ⟨_, _, hldKey⟩ => hldKey x rfl) x s
  case rnd x kk => exact execRnd_overlay (hrand.resolve_left fun h => h x kk rfl) x kk s
  case ldST x => exact execLdST_overlay (hst.resolve_left fun h => h x rfl) x s
  all_goals rfl

/-- Settles O55: the tick counter and the sound timer as changes of unread fields; `Fx18` overwrites the timer unread. -/
theorem soundTimerAndTickAreUnreadable : Obligations.SoundTimerAndTickAreUnreadable := by
  unfold Obligations.SoundTimerAndTickAreUnreadable
  refine fun i s b k => ⟨?_, fun hi => ?_, fun x hi => ?_⟩
  · exact exec_overlay { tick := fun _ => k } i s (.inr rfl) (.inr rfl) (.inr rfl)
  · exact exec_overlay { st := fun _ => b } i s (.inl hi) (.inr rfl) (.inr rfl)
  · subst hi; rfl

/-- Settles O56: the snapshot, the random byte and the cells as changes of fields unread by the instruction. -/
theorem inputsReadOnlyByTheirInstructions : Obligations.InputsReadOnlyByTheirInstructions := by
  unfold Obligations.InputsReadOnlyByTheirInstructions
  refine fun i s => ⟨fun k hskp hsknp hldKey => ?_, fun b hi => ?_, fun k f b r => ?_⟩
  · exact exec_overlay { snapshot := fun _ => k } i s (.inr rfl) (.inl ⟨hskp, hsknp, hldKey⟩) (.inr rfl)
  · exact exec_overlay { rand := fun _ => b } i s (.inr rfl) (.inr rfl) (.inl hi)
  · exact exec_overlay { keys := fun _ => k, frame := fun _ => f, buzzer := fun _ => b, ready := fun _ => r } i s
      (.inr rfl) (.inr rfl) (.inr rfl)

end Sys2Proof.Machine
end

section
/-! SUPPORT. The parked core (70_reset_and_hazards.md R267): a jump to itself is no NOP word, its step is a tick, and its run is
a count of ticks (60_exceptions.md R219). -/

namespace Sys2Proof.Machine

/-! ### No NOP word is an instruction (R5, R78) -/

/-- Under well-formed parameters a word of `NOP_SET` is in no row of the table, so it decodes to nothing. -/
theorem decode_of_nop {p : Params} {w : Word} (hp : p.wellFormed = true) (hw : w ∈ p.nopSet) : decode w = none := by
  simp only [Params.wellFormed, Params.nopSetOk, Bool.and_eq_true, List.all_eq_true, Bool.not_eq_true'] at hp
  obtain ⟨-, hdisjoint⟩ := hp
  cases hdecode : decode w with
  | none => rfl
  | some i =>
    obtain ⟨-, hrow, -⟩ := decodeFollowsTheOpcodeTable
    obtain ⟨hmem, hmatches⟩ := hrow w i hdecode
    simp [hdisjoint w hw i.row hmem] at hmatches

/-! ### One step of a parked core -/

/-- The word at `pc` of a parked core is the jump to `pc`. -/
theorem State.ParkedAt.decode_eq {s : State} {p : Addr} (h : s.ParkedAt p) : decode s.fetchWord = some (.jp p) := by
  obtain ⟨-, hword, -⟩ := h
  rw [hword]
  exact decode_wordNNN_jp p

/-- The execute phase of a parked core jumps to where it is. -/
theorem State.ParkedAt.executes {s : State} {p : Addr} (hs : s.Enabled) (h : s.ParkedAt p) :
    Executes s (s.openStep.advance.setPc p) := by
  have hnop : s.fetchWord ∉ s.params.nopSet := fun hmem => by
    have hnone := decode_of_nop hs.configured hmem
    simp [h.decode_eq] at hnone
  exact .instr (.jp p) _ hnop h.decode_eq rfl

/-- A state with the memory, the parameters and the `pc` of another fetches the same word. -/
theorem fetchWord_congr {s t : State} (hm : t.mem = s.mem) (hp : t.params = s.params) (hpc : t.pc = s.pc) :
    t.fetchWord = s.fetchWord := by
  simp only [State.fetchWord, State.readByte, hm, hp, hpc]

/-- Settles O59: the step's execute phase is the jump to itself, and the end of the iteration is a tick without a
publication. -/
theorem parkedCoreStaysParked : Obligations.ParkedCoreStaysParked := by
  unfold Obligations.ParkedCoreStaysParked
  intro s p hs hparked
  have hexec := hparked.executes hs
  obtain ⟨hpc, hword, hrun⟩ := hparked
  have hrun' : (s.openStep.advance.setPc p).halt = .running := by simp [hrun]
  have hdue : (s.openStep.advance.setPc p).tickDue = s.tickDue := tickDue_congr (by simp) (by simp)
  obtain ⟨htick, hdt, hst, -⟩ := endStep_timers hrun'
  obtain ⟨hdata, hconsumed⟩ := endStep_frame_of_none (t := s.openStep.advance.setPc p) (by simp)
  refine ⟨(s.openStep.advance.setPc p).endStep, step_of_executes hs hexec, ?enabled, ?parked, by simp, by simp, by simp,
    sameMemory_of_eq (by simp) (by simp), by simp, by simp, by simp [hdata], fun h => hconsumed (openStep_consumed s h),
    by simp [htick, hdue], by simp [hdt, hdue], by simp [hst, hdue]⟩
  case enabled =>
    exact ⟨by simp [hrun], by simp [hs.configured], by simp [hs.isLoaded], endStep_ready (openStep_ready s hs.isReady)⟩
  case parked =>
    refine ⟨by simp, ?_, by simp [hrun]⟩
    rw [fetchWord_congr (s := s) (by simp) (by simp) (by simp [hpc]), hword]

/-! ### A run of a parked core -/

/-- A run whose first step answers a next state is the run of one step less from there. -/
theorem run_succ_of_step {s t : State} (n : Nat) (h : step s = .next t) : core.run (n + 1) s = core.run n t := by
  have hcore : core.step s = .next t := h
  simp only [Host.Core.run, hcore]

/-- The counter after `n` ticks from `TICK = k`, and how many decrements fell due, with the first tick taken apart. -/
theorem ticks_succ (N k n : Nat) :
    ((if k + 1 = N then 0 else k + 1) + n) % N = (k + (n + 1)) % N ∧
      (if k + 1 = N then 1 else 0) + ((if k + 1 = N then 0 else k + 1) + n) / N = (k + (n + 1)) / N := by
  have hassoc : k + (n + 1) = k + 1 + n := by omega
  rw [hassoc]
  split
  · next hN =>
    rw [hN, Nat.zero_add, Nat.add_mod_left, Nat.add_div_left n (by omega)]
    exact ⟨rfl, Nat.add_comm _ _⟩
  · exact ⟨rfl, Nat.zero_add _⟩

/-- The tick of a step, in naturals. -/
theorem timerTick_toNat (s : State) :
    s.timerTick.tick = (if s.tick + 1 = s.params.timerDivisor then 0 else s.tick + 1) ∧
      s.timerTick.dt.toNat = s.dt.toNat - (if s.tick + 1 = s.params.timerDivisor then 1 else 0) ∧
      s.timerTick.st.toNat = s.st.toNat - (if s.tick + 1 = s.params.timerDivisor then 1 else 0) := by
  by_cases hdue : s.tick + 1 = s.params.timerDivisor
  · rw [timerTick_due hdue]; simp [hdue]
  · rw [timerTick_not_due hdue]; simp [hdue]

/-- `n` steps of a parked core: it stays parked, and the ticks since the counter was 0, `s.tick + n` of them, have taken one
from each timer per full divisor and left the rest in the counter. -/
theorem parked_run (n : Nat) (s : State) (p : Addr) (hs : s.Enabled) (hparked : s.ParkedAt p)
    (hbelow : s.tick < s.params.timerDivisor) :
    ∃ t, core.run n s = .next t ∧ t.ParkedAt p ∧ t.tick = (s.tick + n) % s.params.timerDivisor ∧
      t.dt.toNat = s.dt.toNat - (s.tick + n) / s.params.timerDivisor ∧
      t.st.toNat = s.st.toNat - (s.tick + n) / s.params.timerDivisor := by
  induction n generalizing s with
  | zero =>
    refine ⟨s, rfl, hparked, ?_, ?_, ?_⟩
    · rw [Nat.add_zero, Nat.mod_eq_of_lt hbelow]
    · rw [Nat.add_zero, Nat.div_eq_of_lt hbelow, Nat.sub_zero]
    · rw [Nat.add_zero, Nat.div_eq_of_lt hbelow, Nat.sub_zero]
  | succ n ih =>
    obtain ⟨u, hstep, hu, huparked, -, -, -, -, -, -, -, -, htick, hdt, hst⟩ := parkedCoreStaysParked s p hs hparked
    obtain ⟨hparams, -⟩ := stepKeepsParametersAndLoad s u hstep
    obtain ⟨htickN, hdtN, hstN⟩ := timerTick_toNat s
    have hubelow : u.tick < u.params.timerDivisor := by rw [htick, hparams]; exact timerTick_below hbelow
    obtain ⟨t, hrun, htparked, httick, htdt, htst⟩ := ih u hu huparked hubelow
    obtain ⟨hmod, hdiv⟩ := ticks_succ s.params.timerDivisor s.tick n
    rw [hparams, htick, htickN] at httick htdt htst
    refine ⟨t, (run_succ_of_step n hstep).trans hrun, htparked, httick.trans hmod, ?_, ?_⟩
    · rw [htdt, hdt, hdtN, Nat.sub_sub, hdiv]
    · rw [htst, hst, hstN, Nat.sub_sub, hdiv]

/-- Settles O60: from `TICK` = 0, `k` divisors' worth of steps are `k` full divisors with nothing left over. -/
theorem parkedTimersDecayOncePerDivisor : Obligations.ParkedTimersDecayOncePerDivisor := by
  unfold Obligations.ParkedTimersDecayOncePerDivisor
  intro s p k hs hparked hzero
  have hpos : 0 < s.params.timerDivisor := timerDivisor_pos hs.configured
  obtain ⟨t, hrun, htparked, htick, hdt, hst⟩ :=
    parked_run (k * s.params.timerDivisor) s p hs hparked (by rwa [hzero])
  rw [hzero, Nat.zero_add, Nat.mul_mod_left] at htick
  rw [hzero, Nat.zero_add, Nat.mul_div_cancel k hpos] at hdt hst
  exact ⟨t, hrun, htparked, htick, hdt, hst⟩

end Sys2Proof.Machine
end
